-- ==== Sys2Proof/Word.lean ====
section
/-! DEFINITION. The words of the DWC: the 64-bit limb, the byte lane, the 128-bit DoubleWidth word as two halves, and
the index of a W register (spec 00_scope R3, R4, R9; 10_state R13). -/

namespace Sys2Proof

/-- A single limb: 64 bits, unsigned (R4). Also the width of every register of the window (R17). -/
abbrev Word := BitVec 64

/-- One byte lane of the bus (R41). -/
abbrev Byte := BitVec 8

/-- The index of one of the 16 W registers (R13). All 16 values are legal (R55), so the bound is in the type. -/
abbrev Reg := Fin 16

/-- A DoubleWidth word: 128 bits held as two unsigned 64-bit halves (R3). -/
structure Dw where
  hi : Word
  lo : Word
  deriving DecidableEq, Repr

/-- The value of a DoubleWidth word, `hi * 2^64 + lo` (R3). -/
def Dw.val (x : Dw) : Nat := x.hi.toNat * 2 ^ 64 + x.lo.toNat

/-- The DoubleWidth word 0. -/
def Dw.zero : Dw := ⟨0, 0⟩

end Sys2Proof
end

