-- ==== Sys2Proof/Config.lean ====
section
/-! DEFINITION. What the platform fixes and the spec leaves OPEN (R7), the free values the spec calls draws (R12, R47),
and the names of the command faults (R102). No constant here has a body a proof could see. -/

namespace Sys2Proof

/-- Where the register window lies, in units of its size 0x200: the OPEN parameter BASE is a multiple of 0x200 (R38).
DESIGN CHOICE (log 3), safe: every BASE is covered. -/
opaque Config.windowIndex : Nat

/-- BASE, the address of the window's first byte (R38). -/
def Config.base : Nat := 0x200 * Config.windowIndex

/-- HOST_BUS_ERROR: an uninterpreted name of what a bus-error response does to the host (R39, R111). DESIGN CHOICE
(log 4), safe: nothing is known of it. -/
opaque Config.hostBusError : Nat

/-- IRQ_LINE: the host interrupt that the IRQ output drives (R110). DESIGN CHOICE (log 5), safe. -/
opaque Config.irqLine : Nat

/-- The free value of the n-th draw (R12 "draw"): what a host read of a W half or of MMCNT returns while BUSY = 1
(R47). DESIGN CHOICE (log 2), safe: it has no body, so a statement holds for every value. -/
opaque Config.freeWord : Nat → Word

/-- The command faults of R102 (codes 1 to 4; the codes themselves are `Machine.faultCode`). They are architectural:
the machine takes them and goes on. -/
inductive CmdFault where
  /-- code 1: `c[7:0]` is not a defined opcode (R59) -/
  | illegalOpcode
  /-- code 2: a defined opcode with a 1 in a reserved bit or an unused field (R58) -/
  | reservedField
  /-- code 3: MONTMUL or MODEXP with MOD = 0 (R85, R97) -/
  | modZero
  /-- code 4: REDUCE with the modulus operand 0 (R78, R79) -/
  | redZero
  deriving DecidableEq, Repr

end Sys2Proof
end

