-- ==== Sys2Proof/Syntax.lean ====
section
/-! DEFINITION. The commands of the DWC, one constructor per row of spec/opcode_table.json (R57, R62). Operands go
destination first, as the assembler writes them. -/

namespace Sys2Proof

/-- A command (R57). `rd`, `rs1`, `rs2` name W registers; the last argument of `getbit` is the index imm8 (R56). -/
inductive Instr where
  /-- R64 -/
  | fromsingle (rd rs1 : Reg)
  /-- R65 -/
  | add (rd rs1 rs2 : Reg)
  /-- R66 -/
  | sub (rd rs1 rs2 : Reg)
  /-- R67 -/
  | shl (rd rs1 : Reg)
  /-- R68 -/
  | shr (rd rs1 : Reg)
  /-- R69 -/
  | getbit (rd rs1 : Reg) (imm8 : Nat)
  /-- R70 -/
  | gt (rd rs1 rs2 : Reg)
  /-- R71 -/
  | eq (rd rs1 rs2 : Reg)
  /-- R79 -/
  | reduce (rd rs1 rs2 : Reg)
  /-- R85 -/
  | montmul (rd rs1 rs2 : Reg)
  /-- R97 -/
  | modexp (rd rs1 rs2 : Reg)
  deriving DecidableEq, Repr

end Sys2Proof
end

