-- ==== Sys2Proof/WellFormed.lean ====
section
/-! DEFINITION. Which commands the encoding can express (R55, R56). A register index is in range by its type; the one
check is that GETBIT's index fits its 8-bit field. -/

namespace Sys2Proof

/-- `imm8` is "an 8-bit unsigned immediate", range 0 to 255 (R54, R56). -/
def imm8InRange (i : Nat) : Bool := decide (i ≤ 255)

/-- A command that the encoding can express. -/
def Instr.wf : Instr → Bool
  | .fromsingle _ _ => true
  | .add _ _ _ => true
  | .sub _ _ _ => true
  | .shl _ _ => true
  | .shr _ _ => true
  | .getbit _ _ i => imm8InRange i
  | .gt _ _ _ => true
  | .eq _ _ _ => true
  | .reduce _ _ _ => true
  | .montmul _ _ _ => true
  | .modexp _ _ _ => true

end Sys2Proof
end

