-- ==== Sys2Proof/Decode.lean ====
section
/-! DEFINITION. From the 64-bit value written to CMD to a command or a decode fault (30_encoding R53-R61), total on
every value; and the encoder, from the same table. -/

namespace Sys2Proof

/-- `c[7:0]`, the opcode (R54). -/
def opField (c : Word) : BitVec 8 := c.extractLsb' 0 8

/-- `c[11:8]`, the destination register (R54). -/
def rdField (c : Word) : Reg := (c.extractLsb' 8 4).toFin

/-- `c[15:12]`, the first source register (R54). -/
def rs1Field (c : Word) : Reg := (c.extractLsb' 12 4).toFin

/-- `c[19:16]`, the second source register (R54). -/
def rs2Field (c : Word) : Reg := (c.extractLsb' 16 4).toFin

/-- `zext(c[27:20])`, the immediate, 0 to 255, no sign extension and no scaling (R56). -/
def imm8Field (c : Word) : Nat := (c.extractLsb' 20 8).toNat

/-- The bits of the command word that a command with fields rd, rs1 uses (R61). -/
def usedRdRs1 : BitVec 32 := 0x0000FFFF

/-- The bits that a command with fields rd, rs1, rs2 uses (R61). -/
def usedRdRs1Rs2 : BitVec 32 := 0x000FFFFF

/-- The bits that GETBIT uses: rd, rs1, imm8 (R61). -/
def usedRdRs1Imm8 : BitVec 32 := 0x0FF0FFFF

/-- The reserved-field check of R58 and R61: any 1 in `c[63:32]` or in a bit of `c[31:0]` outside `used` is
RESERVED_FIELD. -/
def checkReserved (c : Word) (used : BitVec 32) (i : Instr) : Except CmdFault Instr :=
  if c.extractLsb' 32 32 ≠ 0 ∨ c.extractLsb' 0 32 &&& ~~~used ≠ 0 then .error .reservedField else .ok i

/-- Decode of R61: the opcode first (ILLEGAL_OPCODE, R59), then the reserved bits (RESERVED_FIELD, R58), then the
fields. The order is the fault priority of R106. -/
def decode (c : Word) : Except CmdFault Instr :=
  match (opField c).toNat with
  | 0x01 => checkReserved c usedRdRs1 (.fromsingle (rdField c) (rs1Field c))
  | 0x02 => checkReserved c usedRdRs1Rs2 (.add (rdField c) (rs1Field c) (rs2Field c))
  | 0x03 => checkReserved c usedRdRs1Rs2 (.sub (rdField c) (rs1Field c) (rs2Field c))
  | 0x04 => checkReserved c usedRdRs1 (.shl (rdField c) (rs1Field c))
  | 0x05 => checkReserved c usedRdRs1 (.shr (rdField c) (rs1Field c))
  | 0x06 => checkReserved c usedRdRs1Imm8 (.getbit (rdField c) (rs1Field c) (imm8Field c))
  | 0x07 => checkReserved c usedRdRs1Rs2 (.gt (rdField c) (rs1Field c) (rs2Field c))
  | 0x08 => checkReserved c usedRdRs1Rs2 (.eq (rdField c) (rs1Field c) (rs2Field c))
  | 0x10 => checkReserved c usedRdRs1Rs2 (.reduce (rdField c) (rs1Field c) (rs2Field c))
  | 0x20 => checkReserved c usedRdRs1Rs2 (.montmul (rdField c) (rs1Field c) (rs2Field c))
  | 0x30 => checkReserved c usedRdRs1Rs2 (.modexp (rdField c) (rs1Field c) (rs2Field c))
  | _ => .error .illegalOpcode

/-- A register index in its place in the command word. -/
def regBits (r : Reg) (place : Nat) : Word := BitVec.ofNat 64 r.val <<< place

/-- `op | rs1<<12 | rd<<8`, the words of R64, R67, R68. -/
def encodeRdRs1 (op : Word) (rd rs1 : Reg) : Word := op ||| regBits rs1 12 ||| regBits rd 8

/-- `op | rs2<<16 | rs1<<12 | rd<<8`, the words of R65, R66, R70, R71, R79, R85, R97. -/
def encodeRdRs1Rs2 (op : Word) (rd rs1 rs2 : Reg) : Word := regBits rs2 16 ||| encodeRdRs1 op rd rs1

/-- The CMD value of a well-formed command (R57 and the "Encoding" line of each command's rule). -/
def encode : Instr → Word
  | .fromsingle rd rs1 => encodeRdRs1 0x01 rd rs1
  | .add rd rs1 rs2 => encodeRdRs1Rs2 0x02 rd rs1 rs2
  | .sub rd rs1 rs2 => encodeRdRs1Rs2 0x03 rd rs1 rs2
  | .shl rd rs1 => encodeRdRs1 0x04 rd rs1
  | .shr rd rs1 => encodeRdRs1 0x05 rd rs1
  | .getbit rd rs1 i => BitVec.ofNat 64 i <<< 20 ||| encodeRdRs1 0x06 rd rs1
  | .gt rd rs1 rs2 => encodeRdRs1Rs2 0x07 rd rs1 rs2
  | .eq rd rs1 rs2 => encodeRdRs1Rs2 0x08 rd rs1 rs2
  | .reduce rd rs1 rs2 => encodeRdRs1Rs2 0x10 rd rs1 rs2
  | .montmul rd rs1 rs2 => encodeRdRs1Rs2 0x20 rd rs1 rs2
  | .modexp rd rs1 rs2 => encodeRdRs1Rs2 0x30 rd rs1 rs2

/-- A table word of `nbits` bits as the CMD value it stands for: the bits from `nbits` up are 0, `c[63:32]` among them
(R53). -/
def commandOfTableWord (nbits w : Nat) : Word := BitVec.ofNat 64 (w % 2 ^ nbits)

/-- What the decoder reads from a table word; `none` where it refuses. -/
def decodeTableWord (nbits w : Nat) : Option Instr :=
  match decode (commandOfTableWord nbits w) with
  | .ok i => some i
  | .error _ => none

end Sys2Proof
end

