-- ==== Sys2Proof/Machine/State.lean ====
section
/-! DEFINITION. The state of the DWC as plain data (10_state R13-R37), the inputs the platform gives it, the reasons a
step can stop, and the state after reset (70_reset_and_hazards R118). -/

namespace Sys2Proof.Machine

/-- One access of the host to the platform's addresses (R10, R39): a read of `n` bytes at `addr`, or a write of the
bytes `data` at `addr`, lowest address first (R41). -/
inductive HostAccess where
  | read (addr n : Nat)
  | write (addr : Nat) (data : List Byte)
  deriving DecidableEq, Repr

/-- What may happen next (R8, R48, R119). The list of inputs in State is the interleaving of the agents, as data. -/
inductive Input where
  /-- the host's next access takes effect -/
  | access (a : HostAccess)
  /-- the engine has its turn (R33); nothing happens while BUSY = 0 -/
  | engineSlot
  /-- the reset input is asserted (R119) -/
  | assertReset
  /-- the reset input is released -/
  | releaseReset
  deriving DecidableEq, Repr

/-- What the window answered to a host access. -/
inductive Response where
  /-- a read's bytes, lowest address first (R41) -/
  | data (bytes : List Byte)
  /-- a write was received (it may have been dropped: only OVR tells, R22) -/
  | written
  /-- a bus-error response (R39); `reaction` is the platform's HOST_BUS_ERROR -/
  | busError (reaction : Nat)
  deriving DecidableEq, Repr

/-- The state of the DWC. `inputs`, `response` and `draws` are the model's own (log 1, 2, 11); the rest is the spec's. -/
structure State where
  /-- W[0] to W[15] (R13) -/
  w : Vector Dw 16
  /-- STATUS.BUSY (R19) -/
  busy : Bool
  /-- STATUS.DONE (R20) -/
  done : Bool
  /-- STATUS.ERR (R21) -/
  err : Bool
  /-- STATUS.OVR (R22) -/
  ovr : Bool
  /-- STATUS.ERRCODE (R23) -/
  errcode : BitVec 4
  /-- CTRL.IE (R25) -/
  ie : Bool
  /-- ERRCMD (R27) -/
  errcmd : Word
  /-- MOD (R28); MLEN (R29) follows it -/
  modulus : Word
  /-- EXPBITS (R30): the stored count, legal values 1 to 64 -/
  expbits : BitVec 7
  /-- MMCNT (R31) -/
  mmcnt : Word
  /-- PENDING, the latched command word (R32) -/
  pending : Word
  /-- the level of the reset input, true while it is asserted (R119) -/
  inReset : Bool
  /-- the inputs still to come, in the order in which they happen (R48; log 1) -/
  inputs : List Input
  /-- the window's answer to the latest host access (log 11) -/
  response : Option Response
  /-- how many free values have been drawn (R47; log 2) -/
  draws : Nat
  deriving DecidableEq, Repr

/-- A step that stops the machine with a fault: none exists, "No case is `stuck`: every command terminates ... and every
register access has a defined effect or a bus error" (93_implementation_defined; R126). Command faults are taken and the
machine goes on (R103). -/
inductive Fault where
  deriving DecidableEq, Repr

/-- A step without a meaning. -/
inductive Refusal where
  /-- Raised by an arm of exec whose instruction has no meaning yet; no arm does so. Safe. -/
  | notModelled (mnemonic : String)
  /-- Raised by `step` when the host accesses the window while reset is asserted: "Host accesses during reset are the
  platform's concern" (R119), treatment `refuse` (93_implementation_defined section 2). Safe (log 7). -/
  | accessDuringReset
  deriving DecidableEq, Repr

/-- The machine right after reset (R118): every register 0 but EXPBITS = 64; the reset input released; no input waits
(log 7, 11). -/
def State.reset : State where
  w := Vector.replicate 16 Dw.zero
  busy := false
  done := false
  err := false
  ovr := false
  errcode := 0
  ie := false
  errcmd := 0
  modulus := 0
  expbits := 64
  mmcnt := 0
  pending := 0
  inReset := false
  inputs := []
  response := none
  draws := 0

end Sys2Proof.Machine
end

