-- ==== Sys2Proof/Machine/Ops.lean ====
section
/-! DEFINITION. The named operations over State: W registers, the ways a command ends (completion R33, fault entry R103),
the return from a fault (R108), acceptance (R26), the reset input (R119), draws (R47) and byte lanes (R41). -/

namespace Sys2Proof.Machine

/-- Read of DoubleWidth register `i`, the `W[i]` of R10. -/
def State.readW (s : State) (i : Reg) : Dw := s.w[i.val]

/-- Write of DoubleWidth register `i`, the `W[i] <- v` of R10. -/
def State.writeW (s : State) (i : Reg) (v : Dw) : State := { s with w := s.w.set i.val v }

/-- `{0, v}`: a limb as a DoubleWidth word (R10, R64). -/
def zextLimb (v : Word) : Dw := ⟨0, v⟩

/-- The cause codes of R102. -/
def faultCode : CmdFault → BitVec 4
  | .illegalOpcode => 1
  | .reservedField => 2
  | .modZero => 3
  | .redZero => 4

/-- A command ends without fault (R33 `ok`): W[rd] gets the result, DONE is set, BUSY cleared. -/
def State.complete (s : State) (rd : Reg) (v : Dw) : State :=
  { s with w := s.w.set rd.val v, done := true, busy := false }

/-- FAULT ENTRY, the one way a command fault is taken (R33 `fault(code)`, R103, R107): ERR, ERRCODE and ERRCMD record it,
BUSY is cleared, and no W register and no MMCNT write takes place. DONE is not written (log 13). -/
def State.takeFault (s : State) (f : CmdFault) : State :=
  { s with err := true, errcode := faultCode f, errcmd := s.pending, busy := false }

/-- MMCNT grows by the products of a completed command, modulo 2^64 (R31). -/
def State.countProducts (s : State) (n : Nat) : State := { s with mmcnt := s.mmcnt + BitVec.ofNat 64 n }

/-- A host write of STATUS (R20-R24): every write-1-to-clear bit of `v` at once. Bit 2 is the RETURN FROM A FAULT
(R108): it clears ERR and ERRCODE, and ERRCMD keeps the faulting word. -/
def State.clearStatus (s : State) (v : Word) : State :=
  { s with
    done := s.done && !v.getLsbD 1
    err := s.err && !v.getLsbD 2
    errcode := if v.getLsbD 2 then 0 else s.errcode
    ovr := s.ovr && !v.getLsbD 3 }

/-- The engine accepts a command (R26): it is latched undecoded, DONE is cleared and BUSY set. -/
def State.accept (s : State) (c : Word) : State := { s with pending := c, done := false, busy := true }

/-- A host write is dropped because the block is busy or in error (R22). -/
def State.dropWrite (s : State) : State := { s with ovr := true }

/-- The window answers a host access. -/
def State.respond (s : State) (r : Response) : State := { s with response := some r }

/-- The free value of this moment (R47, log 2). -/
def State.freeWord (s : State) : Word := Config.freeWord s.draws

/-- A free value has been used: the next one is another. -/
def State.drawn (s : State) : State := { s with draws := s.draws + 1 }

/-- The next input is taken from the list (R48). -/
def State.withInputs (s : State) (rest : List Input) : State := { s with inputs := rest }

/-- The reset input is asserted (R119): every item of R118 takes its reset value; a running command is abandoned with no
DONE and no ERR. The model's own fields are no part of the DWC and stay (log 11). -/
def State.assertReset (s : State) : State :=
  { State.reset with inReset := true, inputs := s.inputs, response := s.response, draws := s.draws }

/-- The reset input is released. -/
def State.releaseReset (s : State) : State := { s with inReset := false }

/-- Byte lane `k` of a 64-bit access carries bits `[8k+7:8k]` (R41). -/
def laneByte (v : Word) (k : Nat) : Byte := v.extractLsb' (8 * k) 8

/-- The 8 bytes of a 64-bit access, lowest address first (R41). -/
def toLanes (v : Word) : List Byte :=
  [laneByte v 0, laneByte v 1, laneByte v 2, laneByte v 3, laneByte v 4, laneByte v 5, laneByte v 6, laneByte v 7]

/-- The number that bytes stand for, lowest address first: little-endian (R41). -/
def lanesVal : List Byte → Nat
  | [] => 0
  | b :: bs => b.toNat + 256 * lanesVal bs

/-- The 64-bit value that the 8 bytes of a write carry (R41). -/
def fromLanes (bs : List Byte) : Word := BitVec.ofNat 64 (lanesVal bs)

end Sys2Proof.Machine
end

