-- ==== Sys2Proof/Machine/Operands.lean ====
section
/-! DEFINITION. The operand forms of a command (R55, R56, R60): a whole W register (`State.readW`), the low limb of a W
register, the modulus with its length, and the exponent bit count. They are read before W[rd] is written. -/

namespace Sys2Proof.Machine

/-- `W[i].lo`: a single-limb operand; the hi half is ignored (R64, R85, R91). -/
def State.limb (s : State) (i : Reg) : Word := (s.readW i).lo

/-- `bitlen(v)`: the number of binary digits of v, 0 for v = 0 (R5, R10). -/
def bitlen (v : Word) : Nat := if v = 0 then 0 else Nat.log2 v.toNat + 1

/-- MLEN: the bit length m of MOD (R29). -/
def State.mlen (s : State) : Nat := bitlen s.modulus

/-- K: the number of exponent bits MODEXP processes, the value of EXPBITS (R6, R30). -/
def State.expBitCount (s : State) : Nat := s.expbits.toNat

end Sys2Proof.Machine
end

