-- ==== Sys2Proof/Machine/Flags.lean ====
section
/-! DEFINITION. The one-bit results. The DWC has no architectural flags (R16): the carry and the borrow live inside one
operation, compare results go to W[rd], and the status bits are STATUS's. Here: carry and borrow (R65, R66), a bit as a
word, STATUS and CTRL read whole (R19-R25), and the interrupt output (R110). -/

namespace Sys2Proof.Machine

/-- A bit as a 64-bit word, 0 or 1. -/
def bitWord (b : Bool) : Word := if b then 1 else 0

/-- The carry from the lo half into the hi half: 1 exactly when the low sum is below its first operand, compared unsigned
(R65, R74). -/
def carryBit (lo aLo : Word) : Word := bitWord (decide (lo < aLo))

/-- The borrow from the hi half: 1 exactly when the low difference is above its first operand, unsigned (R66, R74). -/
def borrowBit (lo aLo : Word) : Word := bitWord (decide (lo > aLo))

/-- STATUS read whole: BUSY 0, DONE 1, ERR 2, OVR 3, ERRCODE [11:8], the rest 0 (R19-R24). -/
def State.statusWord (s : State) : Word :=
  bitWord s.busy ||| bitWord s.done <<< 1 ||| bitWord s.err <<< 2 ||| bitWord s.ovr <<< 3
    ||| s.errcode.setWidth 64 <<< 8

/-- CTRL read whole: IE in bit 0, the rest 0 (R25). -/
def State.ctrlWord (s : State) : Word := bitWord s.ie

/-- The level interrupt output `IRQ = CTRL.IE AND (STATUS.DONE OR STATUS.ERR)` (R110). -/
def State.irq (s : State) : Bool := s.ie && (s.done || s.err)

/-- What host interrupt `line` sees: IRQ on the platform's IRQ_LINE, nothing on any other line (R110; log 5). -/
def State.interruptLine (s : State) (line : Nat) : Bool := decide (line = Config.irqLine) && s.irq

end Sys2Proof.Machine
end

