-- ==== Sys2Proof/Machine/Alu.lean ====
section
/-! DEFINITION. The unit functions of the DoubleWidth ALU (R11): pure functions of DoubleWidth words, used by its own
commands and by the Reducer, the Montgomery multiplier and the ModExp datapath (40_doublewidth R64-R71). -/

namespace Sys2Proof.Machine

/-- DW_FROMSINGLE(v) = {0, v} (R64). -/
def dwFromsingle (v : Word) : Dw := zextLimb v

/-- DW_ADD (R65): the carry goes from lo into hi exactly when the low sum wraps. -/
def dwAdd (a b : Dw) : Dw :=
  let lo := a.lo + b.lo
  ⟨a.hi + b.hi + carryBit lo a.lo, lo⟩

/-- DW_SUB (R66): the borrow leaves hi exactly when the low difference wraps. -/
def dwSub (a b : Dw) : Dw :=
  let lo := a.lo - b.lo
  ⟨a.hi - b.hi - borrowBit lo a.lo, lo⟩

/-- DW_SHL (R67): left by one across the boundary; `lo[63]` becomes `hi[0]`, bit 127 is lost. -/
def dwShl (a : Dw) : Dw := ⟨(a.hi <<< 1) ||| bitWord (a.lo.getLsbD 63), a.lo <<< 1⟩

/-- DW_SHR (R68): logical right by one across the boundary; `hi[0]` becomes `lo[63]`, bit 0 is lost. -/
def dwShr (a : Dw) : Dw := ⟨a.hi >>> 1, (a.lo >>> 1) ||| (bitWord (a.hi.getLsbD 0) <<< 63)⟩

/-- DW_GETBIT (R69): bit i of the 128-bit value; indices of 128 and above are out of range and give 0. -/
def dwGetbit (a : Dw) (i : Nat) : Bool :=
  if i < 64 then a.lo.getLsbD i else if i < 128 then a.hi.getLsbD (i - 64) else false

/-- DW_GT (R70): upper halves first, then lower, unsigned. -/
def dwGt (a b : Dw) : Bool := if a.hi ≠ b.hi then decide (a.hi > b.hi) else decide (a.lo > b.lo)

/-- DW_EQ (R71). -/
def dwEq (a b : Dw) : Bool := decide (a.hi = b.hi) && decide (a.lo = b.lo)

/-- `a >= b` as the units test it: DW_GT or DW_EQ (R84 step 4, R78). -/
def dwGe (a b : Dw) : Bool := dwGt a b || dwEq a b

end Sys2Proof.Machine
end

