-- ==== Sys2Proof/Machine/DoubleWidth.lean ====
section
/-! DEFINITION. The meanings of the DoubleWidth ALU commands (40_doublewidth R64-R71): each applies one unit function to W
registers, writes W[rd], and completes (R33). None faults; none reads MOD, MLEN or EXPBITS; none changes MMCNT. -/

namespace Sys2Proof.Machine

/-- FROMSINGLE (R64). -/
def execFromsingle (rd rs1 : Reg) (s : State) : Host.Outcome State Fault Refusal :=
  .next (s.complete rd (dwFromsingle (s.limb rs1)))

/-- ADD (R65). -/
def execAdd (rd rs1 rs2 : Reg) (s : State) : Host.Outcome State Fault Refusal :=
  .next (s.complete rd (dwAdd (s.readW rs1) (s.readW rs2)))

/-- SUB (R66). -/
def execSub (rd rs1 rs2 : Reg) (s : State) : Host.Outcome State Fault Refusal :=
  .next (s.complete rd (dwSub (s.readW rs1) (s.readW rs2)))

/-- SHL (R67). -/
def execShl (rd rs1 : Reg) (s : State) : Host.Outcome State Fault Refusal :=
  .next (s.complete rd (dwShl (s.readW rs1)))

/-- SHR (R68). -/
def execShr (rd rs1 : Reg) (s : State) : Host.Outcome State Fault Refusal :=
  .next (s.complete rd (dwShr (s.readW rs1)))

/-- GETBIT (R69): W[rd] <- {0, zext_64(bit)}. An index beyond 255 has no encoding and falls under the same out-of-range
case (log 18). -/
def execGetbit (rd rs1 : Reg) (imm8 : Nat) (s : State) : Host.Outcome State Fault Refusal :=
  .next (s.complete rd (zextLimb (bitWord (dwGetbit (s.readW rs1) imm8))))

/-- GT (R70): W[rd] <- {0, 1 or 0}. -/
def execGt (rd rs1 rs2 : Reg) (s : State) : Host.Outcome State Fault Refusal :=
  .next (s.complete rd (zextLimb (bitWord (dwGt (s.readW rs1) (s.readW rs2)))))

/-- EQ (R71): W[rd] <- {0, 1 or 0}. -/
def execEq (rd rs1 rs2 : Reg) (s : State) : Host.Outcome State Fault Refusal :=
  .next (s.complete rd (zextLimb (bitWord (dwEq (s.readW rs1) (s.readW rs2)))))

end Sys2Proof.Machine
end

