-- ==== Sys2Proof/Machine/Reducer.lean ====
section
/-! DEFINITION. The Reducer (41_reducer R75-R80): REDUCE_FN step for step as R78 writes it, and the command REDUCE. -/

namespace Sys2Proof.Machine

/-- The doubling stage of R78: `while v > D and D[127] == 0: D <- DW_SHL(D); k <- k + 1`. The first argument bounds the
iterations; 127 suffice for D != 0 (R80 (c), R126; log 14). -/
def doublingStage : Nat → Dw → Dw → Nat → Dw × Nat
  | 0, _, d, k => (d, k)
  | fuel + 1, v, d, k =>
    if dwGt v d && !dwGetbit d 127 then doublingStage fuel v (dwShl d) (k + 1) else (d, k)

/-- The inner loop of R78: `while v >= D: v <- DW_SUB(v, D)`. The first argument bounds the iterations; for D != 0 each
takes at least 1 from v, so val(v) suffice (log 14). -/
def subtractWhile : Nat → Dw → Dw → Dw
  | 0, v, _ => v
  | fuel + 1, v, d => if dwGe v d then subtractWhile fuel (dwSub v d) d else v

/-- The subtraction stages of R78, `for j = k downto 0`, with D = M * 2^j in stage j. -/
def subtractStages : Nat → Dw → Dw → Dw
  | 0, v, d => subtractWhile v.val v d
  | j + 1, v, d => subtractStages j (subtractWhile v.val v d) (dwShr d)

/-- REDUCE_FN past its check of the modulus: the two loops of R78. -/
def reduceLoops (v m : Dw) : Dw :=
  let stage := doublingStage 127 v m 0
  subtractStages stage.2 v stage.1

/-- REDUCE_FN(v, M) (R78): modulus 0 raises RED_ZERO. -/
def reduceFn (v m : Dw) : Except CmdFault Dw :=
  if m = Dw.zero then .error .redZero else .ok (reduceLoops v m)

/-- REDUCE (R79): W[rd] <- REDUCE_FN(W[rs1], W[rs2]). MOD is not read and MMCNT is not changed. -/
def execReduce (rd rs1 rs2 : Reg) (s : State) : Host.Outcome State Fault Refusal :=
  match reduceFn (s.readW rs1) (s.readW rs2) with
  | .ok r => .next (s.complete rd r)
  | .error f => .next (s.takeFault f)

end Sys2Proof.Machine
end

