-- ==== Sys2Proof/Machine/Montgomery.lean ====
section
/-! DEFINITION. The Montgomery multiplier (42_montgomery R81-R89): MM_FN as R83 and R84 write it, and the command
MONTMUL. -/

namespace Sys2Proof.Machine

/-- One iteration i on the accumulator T (R83): both additions are always done, of 0 where the bit is 0. -/
def montIteration (x y n : Word) (i : Nat) (t : Dw) : Dw :=
  let xi := x.getLsbD i
  let y0 := y.getLsbD 0
  let nu := dwGetbit t 0 ^^ (xi && y0)
  dwShr (dwAdd (dwAdd t (zextLimb (if xi then y else 0))) (zextLimb (if nu then n else 0)))

/-- The accumulator after iterations 0 to count - 1; "each Montgomery multiplication starts from zero" (R84, R34). -/
def montLoop (x y n : Word) : Nat → Dw
  | 0 => Dw.zero
  | count + 1 => montIteration x y n count (montLoop x y n count)

/-- Step 4 of R84: the subtraction is always done; its value is taken when T >= N over the full 128 bits, and is the
decoy, discarded, otherwise (R35). -/
def montCorrect (t : Dw) (n : Word) : Dw :=
  let nw := zextLimb n
  let dcy := dwSub t nw
  if dwGt t nw || dwEq t nw then dcy else t

/-- Step 5 of R84: `repeat m times: U <- DW_SHL(U)` (D42). -/
def shlTimes : Nat → Dw → Dw
  | 0, u => u
  | m + 1, u => shlTimes m (dwShl u)

/-- MM_FN(X, Y, N) (R84). Its callers guarantee N != 0, so the Reducer's check cannot fault and the loops are called
directly. -/
def mmFn (x y n : Word) : Word :=
  let m := bitlen n
  let t := montCorrect (montLoop x y n m) n
  (reduceLoops (shlTimes m t) (zextLimb n)).lo

/-- MONTMUL (R85): W[rd] <- {0, MM_FN(W[rs1].lo, W[rs2].lo, MOD)} and MMCNT + 1; MOD = 0 raises MOD_ZERO. -/
def execMontmul (rd rs1 rs2 : Reg) (s : State) : Host.Outcome State Fault Refusal :=
  if s.modulus = 0 then .next (s.takeFault .modZero)
  else .next ((s.countProducts 1).complete rd (zextLimb (mmFn (s.limb rs1) (s.limb rs2) s.modulus)))

end Sys2Proof.Machine
end

