-- ==== Sys2Proof/Machine/ModExp.lean ====
section
/-! DEFINITION. The ModExp datapath (43_modexp R90-R101): MODEXP_FN as R94 writes it, decoy included, and the command
MODEXP. -/

namespace Sys2Proof.Machine

/-- The working values of one MODEXP (R34, R92): the base t, the true accumulator r, the decoy accumulator r_fake. They
exist only while the command runs. -/
structure ExpPath where
  t : Word
  r : Word
  rFake : Word
  deriving DecidableEq, Repr

/-- `DelayHook(j)`: a no-op, it changes no state (R95). -/
def delayHook (_j : Nat) (d : ExpPath) : ExpPath := d

/-- One iteration j (R93, R94): the product of r and the t of the iteration's start goes to r when e[j] = 1, else to
r_fake; then t is squared. -/
def expIteration (e n : Word) (j : Nat) (d : ExpPath) : ExpPath :=
  let d := delayHook j d
  let p := mmFn d.r d.t n
  let t' := mmFn d.t d.t n
  if e.getLsbD j then ⟨t', p, d.rFake⟩ else ⟨t', d.r, p⟩

/-- The datapath after iterations 0 to count - 1, from t = msg, r = 1, r_fake = 1 (R92). -/
def expLoop (msg e n : Word) : Nat → ExpPath
  | 0 => ⟨msg, 1, 1⟩
  | count + 1 => expIteration e n count (expLoop msg e n count)

/-- MODEXP_FN(msg, e, N, K) (R94). -/
def modexpFn (msg e n : Word) (k : Nat) : Word := (expLoop msg e n k).r

/-- MODEXP (R97): W[rd] <- {0, MODEXP_FN(W[rs1].lo, W[rs2].lo, MOD, EXPBITS)} and MMCNT + 2K (R96); MOD = 0 raises
MOD_ZERO. -/
def execModexp (rd rs1 rs2 : Reg) (s : State) : Host.Outcome State Fault Refusal :=
  if s.modulus = 0 then .next (s.takeFault .modZero)
  else
    .next ((s.countProducts (2 * s.expBitCount)).complete rd
      (zextLimb (modexpFn (s.limb rs1) (s.limb rs2) s.modulus s.expBitCount)))

end Sys2Proof.Machine
end

