-- ==== Sys2Proof/Machine/Dispatch.lean ====
section
/-! DEFINITION. The meaning of each command, one arm per constructor (R57). -/

namespace Sys2Proof.Machine

/-- What a command does at a state whose PENDING holds it: the family rule and the end of the engine step (R33). -/
def exec (i : Instr) (s : State) : Host.Outcome State Fault Refusal :=
  match i with
  | .fromsingle rd rs1 => Sys2Proof.Machine.execFromsingle rd rs1 s
  | .add rd rs1 rs2 => Sys2Proof.Machine.execAdd rd rs1 rs2 s
  | .sub rd rs1 rs2 => Sys2Proof.Machine.execSub rd rs1 rs2 s
  | .shl rd rs1 => Sys2Proof.Machine.execShl rd rs1 s
  | .shr rd rs1 => Sys2Proof.Machine.execShr rd rs1 s
  | .getbit rd rs1 imm8 => Sys2Proof.Machine.execGetbit rd rs1 imm8 s
  | .gt rd rs1 rs2 => Sys2Proof.Machine.execGt rd rs1 rs2 s
  | .eq rd rs1 rs2 => Sys2Proof.Machine.execEq rd rs1 rs2 s
  | .reduce rd rs1 rs2 => Sys2Proof.Machine.execReduce rd rs1 rs2 s
  | .montmul rd rs1 rs2 => Sys2Proof.Machine.execMontmul rd rs1 rs2 s
  | .modexp rd rs1 rs2 => Sys2Proof.Machine.execModexp rd rs1 rs2 s

end Sys2Proof.Machine
end

