-- ==== Sys2Proof/Machine/Window.lean ====
section
/-! DEFINITION. The host's register window (10_state R17-R31; 20_memory R38-R52): which register an access reaches, what a
read returns, what a write does, and the bus error. -/

namespace Sys2Proof.Machine

/-- The registers of the window (R17). -/
inductive WinReg where
  | id
  | status
  | ctrl
  | cmd
  | errcmd
  | modulus
  | mlen
  | expbits
  | mmcnt
  | reserved
  | wLo (i : Reg)
  | wHi (i : Reg)
  deriving DecidableEq, Repr

/-- The W register whose halves lie at offset `off` (R40). -/
def wIndexAt (off : Nat) : Reg := ⟨(off - 0x100) / 16 % 16, Nat.mod_lt _ (by decide)⟩

/-- The register map of R17, for an offset that is a multiple of 8 below 0x200. -/
def winRegAt (off : Nat) : WinReg :=
  match off with
  | 0x000 => .id
  | 0x008 => .status
  | 0x010 => .ctrl
  | 0x018 => .cmd
  | 0x020 => .errcmd
  | 0x028 => .modulus
  | 0x030 => .mlen
  | 0x038 => .expbits
  | 0x040 => .mmcnt
  | _ => if off < 0x100 then .reserved else if off % 16 = 0 then .wLo (wIndexAt off) else .wHi (wIndexAt off)

/-- The offset that an access of `n` bytes at `addr` reaches; `none` is a bus error: not 8 bytes wide, not at a multiple
of 8, or outside [BASE, BASE + 0x200) (R39). -/
def windowOffset (addr n : Nat) : Option Nat :=
  if Config.base ≤ addr ∧ n = 8 ∧ (addr - Config.base) % 8 = 0 ∧ addr - Config.base < 0x200 then
    some (addr - Config.base)
  else none

/-- ID (R18): "DWAL" in [31:0], the edition 7 in [47:32]. -/
def idWord : Word := 0x000000074457414C

/-- The current value of a register of the window (R17-R31, R40, R43). -/
def State.regValue (s : State) : WinReg → Word
  | .id => idWord
  | .status => s.statusWord
  | .ctrl => s.ctrlWord
  | .cmd => 0
  | .errcmd => s.errcmd
  | .modulus => s.modulus
  | .mlen => BitVec.ofNat 64 s.mlen
  | .expbits => s.expbits.setWidth 64
  | .mmcnt => s.mmcnt
  | .reserved => 0
  | .wLo i => (s.readW i).lo
  | .wHi i => (s.readW i).hi

/-- The registers whose reads are draws while BUSY = 1: the W halves and MMCNT (R47). -/
def WinReg.unspecifiedWhileBusy : WinReg → Bool
  | .mmcnt | .wLo _ | .wHi _ => true
  | .id | .status | .ctrl | .cmd | .errcmd | .modulus | .mlen | .expbits | .reserved => false

/-- The registers whose writes are dropped while BUSY = 1: CMD, MOD, EXPBITS, MMCNT and the W halves (R46). -/
def WinReg.lockedWhileBusy : WinReg → Bool
  | .cmd | .modulus | .expbits | .mmcnt | .wLo _ | .wHi _ => true
  | .id | .status | .ctrl | .errcmd | .mlen | .reserved => false

/-- A host read (R39, R44, R47): no side effect on the DWC; a draw where the value is unspecified. -/
def State.hostRead (s : State) (r : WinReg) : State :=
  if s.busy && r.unspecifiedWhileBusy then (s.respond (.data (toLanes s.freeWord))).drawn
  else s.respond (.data (toLanes (s.regValue r)))

/-- A host write of CMD (R26): accepted undecoded when the block is neither busy nor in error, else dropped. -/
def State.writeCmd (s : State) (c : Word) : State :=
  if s.busy = false ∧ s.err = false then s.accept c else s.dropWrite

/-- A host write of EXPBITS (R30): a value outside 1 to 64 is ignored, without OVR. -/
def State.writeExpbits (s : State) (v : Word) : State :=
  if 1 ≤ v.toNat ∧ v.toNat ≤ 64 then { s with expbits := v.setWidth 7 } else s

/-- A host write of one half of W[i]; the other half is unchanged (R40). -/
def State.writeHalf (s : State) (i : Reg) (high : Bool) (v : Word) : State :=
  s.writeW i (if high then { s.readW i with hi := v } else { s.readW i with lo := v })

/-- What a host write that is not dropped for BUSY does to the register (R17-R31, R43, R45). -/
def State.writeReg (s : State) (r : WinReg) (v : Word) : State :=
  match r with
  | .id => s
  | .status => s.clearStatus v
  | .ctrl => { s with ie := v.getLsbD 0 }
  | .cmd => s.writeCmd v
  | .errcmd => s
  | .modulus => { s with modulus := v }
  | .mlen => s
  | .expbits => s.writeExpbits v
  | .mmcnt => { s with mmcnt := v }
  | .reserved => s
  | .wLo i => s.writeHalf i false v
  | .wHi i => s.writeHalf i true v

/-- A host write (R46): dropped with OVR while the register is locked by a running command (log 8), else the register's
own rule. -/
def State.hostWrite (s : State) (r : WinReg) (v : Word) : State :=
  if s.busy && r.lockedWhileBusy then s.dropWrite else s.writeReg r v

/-- One host access, complete before the next (R39, R48): the register's rule, or a bus error that changes no DWC state. -/
def State.serve (s : State) : HostAccess → State
  | .read addr n =>
    match windowOffset addr n with
    | none => s.respond (.busError Config.hostBusError)
    | some off => s.hostRead (winRegAt off)
  | .write addr data =>
    match windowOffset addr data.length with
    | none => s.respond (.busError Config.hostBusError)
    | some off => (s.hostWrite (winRegAt off) (fromLanes data)).respond .written

/-- The byte that a byte-wise view of the window would show at offset `off`: the lane of the register that holds it (R41). -/
def State.windowByte (s : State) (off : Nat) : Byte := laneByte (s.regValue (winRegAt (off - off % 8))) (off % 8)

end Sys2Proof.Machine
end

