-- ==== Sys2Proof/Machine/Step.lean ====
section
/-! DEFINITION. One step of the DWC: the next input happens, or, when no input waits, a busy engine runs (R8, R33, R48,
R119). -/

namespace Sys2Proof.Machine

/-- The engine step (R33), enabled exactly when BUSY = 1: the command in PENDING runs whole; a decode fault is taken
(R58, R59, R61). With BUSY = 0 the engine is idle and all state is kept (R117). -/
def engineStep (s : State) : Host.Outcome State Fault Refusal :=
  if s.busy then
    match decode s.pending with
    | .ok i => exec i s
    | .error f => .next (s.takeFault f)
  else .next s

/-- One transition. The list of inputs says which agent moves next; an empty list leaves the engine its turn. -/
def step (s : State) : Host.Outcome State Fault Refusal :=
  match s.inputs with
  | [] => engineStep s
  | .engineSlot :: rest => engineStep (s.withInputs rest)
  | .access a :: rest =>
    if s.inReset then .refused .accessDuringReset else .next ((s.withInputs rest).serve a)
  | .assertReset :: rest => .next (s.withInputs rest).assertReset
  | .releaseReset :: rest => .next (s.withInputs rest).releaseReset

/-- The state in which the table word `w` has just been accepted (R26) and the engine has the next turn: the very next
step decodes and runs it (log 9). -/
def State.withFetchWord (s : State) (nbits w : Nat) : State :=
  (s.accept (commandOfTableWord nbits w)).withInputs (.engineSlot :: s.inputs)

end Sys2Proof.Machine
end

