-- ==== Sys2Proof/Safety.lean ====
section
/-! DEFINITION. The terms in which claims about the DWC are made: how a command ends, the invariant of the machine, a host
that keeps off the window during reset, and the spec's unit algorithms over exact natural numbers. -/

namespace Sys2Proof

/-! ### The rows of the opcode map (R57) -/

/-- The opcode of a command's row (R57). -/
def Instr.opcode : Instr → BitVec 8
  | .fromsingle _ _ => 0x01
  | .add _ _ _ => 0x02
  | .sub _ _ _ => 0x03
  | .shl _ _ => 0x04
  | .shr _ _ => 0x05
  | .getbit _ _ _ => 0x06
  | .gt _ _ _ => 0x07
  | .eq _ _ _ => 0x08
  | .reduce _ _ _ => 0x10
  | .montmul _ _ _ => 0x20
  | .modexp _ _ _ => 0x30

/-- The destination register of a command: its field `rd` (R54, R55). -/
def Instr.rd : Instr → Reg
  | .fromsingle rd _ => rd
  | .add rd _ _ => rd
  | .sub rd _ _ => rd
  | .shl rd _ => rd
  | .shr rd _ => rd
  | .getbit rd _ _ => rd
  | .gt rd _ _ => rd
  | .eq rd _ _ => rd
  | .reduce rd _ _ => rd
  | .montmul rd _ _ => rd
  | .modexp rd _ _ => rd

/-- The mask of a command's row over the 64-bit CMD value: c[63:32] must be 0 in every row (R57). -/
def Instr.rowMask : Instr → Word
  | .fromsingle _ _ => 0xFFFFFFFFFFFF00FF
  | .add _ _ _ => 0xFFFFFFFFFFF000FF
  | .sub _ _ _ => 0xFFFFFFFFFFF000FF
  | .shl _ _ => 0xFFFFFFFFFFFF00FF
  | .shr _ _ => 0xFFFFFFFFFFFF00FF
  | .getbit _ _ _ => 0xFFFFFFFFF00F00FF
  | .gt _ _ _ => 0xFFFFFFFFFFF000FF
  | .eq _ _ _ => 0xFFFFFFFFFFF000FF
  | .reduce _ _ _ => 0xFFFFFFFFFFF000FF
  | .montmul _ _ _ => 0xFFFFFFFFFFF000FF
  | .modexp _ _ _ => 0xFFFFFFFFFFF000FF

end Sys2Proof

namespace Sys2Proof.Machine

/-! ### Host programs (R63) -/

/-- `RD REG`: the 8-byte read of the register at offset `off` (R63). -/
def readAt (off : Nat) : HostAccess := .read (Config.base + off) 8

/-- `WR REG, v`: the 8-byte write of `v` to the register at offset `off` (R63). -/
def writeAt (off : Nat) (v : Word) : HostAccess := .write (Config.base + off) (toLanes v)

/-- The host's access `a` is what happens next, and reset is not asserted. -/
def State.HostDoes (s : State) (a : HostAccess) (rest : List Input) : Prop :=
  s.inReset = false ∧ s.inputs = .access a :: rest

/-- The command word with these fields, put together as the sum of its fields in their places (R54). -/
def fieldsWord (op : Nat) (rd rs1 rs2 : Reg) (imm8 : Nat) : Word :=
  BitVec.ofNat 64 (op + 2 ^ 8 * rd.val + 2 ^ 12 * rs1.val + 2 ^ 16 * rs2.val + 2 ^ 20 * imm8)

/-- The host's read is answered with `v`, and nothing else happens. -/
def State.Answers (s : State) (rest : List Input) (v : Word) : Prop :=
  step s = .next { s with inputs := rest, response := some (.data (toLanes v)) }

/-! ### How a command ends -/

/-- The command ended without fault (R33 `ok`): DONE = 1, BUSY = 0, MMCNT grew by `products` modulo 2^64 (R31), no W
register but `rd` changed, and every other field of the state is as before. -/
structure Completes (s t : State) (rd : Reg) (products : Nat) : Prop where
  others : ∀ i, i ≠ rd → t.readW i = s.readW i
  counted : t.mmcnt.toNat = (s.mmcnt.toNat + products) % 2 ^ 64
  rest : t = { s with w := t.w, mmcnt := t.mmcnt, done := true, busy := false }

/-- The command ended with the fault of cause code `code` (R33 `fault(code)`, R103): ERR = 1, ERRCODE = code, ERRCMD = the
command word, BUSY = 0; everything else, every W register and MMCNT among it, is as before. -/
def Faulted (s t : State) (code : BitVec 4) : Prop :=
  t = { s with err := true, errcode := code, errcmd := s.pending, busy := false }

/-! ### The invariant -/

/-- ERRCODE says why the word in ERRCMD faulted (R102, R106): the decoder's own fault, or the operand fault of the
command the word decodes to. -/
def explains (code : BitVec 4) (c : Word) : Bool :=
  match decode c with
  | .error f => code == faultCode f
  | .ok (.reduce _ _ _) => code == faultCode .redZero
  | .ok (.montmul _ _ _) => code == faultCode .modZero
  | .ok (.modexp _ _ _) => code == faultCode .modZero
  | .ok _ => false

/-- What every step keeps. -/
structure State.Inv (s : State) : Prop where
  /-- EXPBITS holds a legal value, 1 to 64 (R30) -/
  expbitsLegal : 1 ≤ s.expbits.toNat ∧ s.expbits.toNat ≤ 64
  /-- ERRCODE is 0 while ERR = 0 (R23) -/
  codeClear : s.err = false → s.errcode = 0
  /-- while ERR = 1, ERRCODE is the reason why ERRCMD faulted; so it is in 1..4 (R27, R102) -/
  codeExplains : s.err = true → explains s.errcode s.errcmd = true
  /-- DONE and ERR are never 1 together (R106) -/
  oneEnd : ¬(s.done = true ∧ s.err = true)
  /-- a running command was accepted with ERR = 0 and cleared DONE (R26) -/
  busyClean : s.busy = true → s.done = false ∧ s.err = false
  /-- while reset is asserted every item of R118 has its reset value (R119) -/
  heldInReset : s.inReset = true →
    s = { State.reset with inReset := true, inputs := s.inputs, response := s.response, draws := s.draws }

/-! ### A host that keeps off the window during reset (R119) -/

/-- No access stands in the inputs at a moment when reset is asserted; the first argument is the level of the reset input
now. -/
def keepsOff : Bool → List Input → Bool
  | _, [] => true
  | r, .access _ :: rest => !r && keepsOff r rest
  | r, .engineSlot :: rest => keepsOff r rest
  | _, .assertReset :: rest => keepsOff true rest
  | _, .releaseReset :: rest => keepsOff false rest

/-- The inputs still to come respect the reset input. -/
def State.HostKeepsOff (s : State) : Prop := keepsOff s.inReset s.inputs = true

/-! ### The unit algorithms over exact natural numbers -/

/-- The Montgomery accumulator after `count` iterations of R83, over natural numbers without any width. -/
def natMontLoop (x y n : Nat) : Nat → Nat
  | 0 => 0
  | i + 1 =>
    let t := natMontLoop x y n i
    let xi := x / 2 ^ i % 2
    let nu := (t % 2 + xi * (y % 2)) % 2
    (t + xi * y + nu * n) / 2

/-- MM_FN of R84 over natural numbers: the loop, one conditional subtraction, the scaling by 2^m and the remainder. -/
def natMm (x y n m : Nat) : Nat :=
  let t := natMontLoop x y n m
  (if t ≥ n then t - n else t) * 2 ^ m % n

/-- The base t and the result r of R94 after `count` iterations, over natural numbers and without the decoy. -/
def natExpLoop (msg e n m : Nat) : Nat → Nat × Nat
  | 0 => (msg, 1)
  | j + 1 =>
    let p := natExpLoop msg e n m j
    (natMm p.1 p.1 n m, if e / 2 ^ j % 2 = 1 then natMm p.2 p.1 n m else p.2)

/-- The subtraction stages of R78 with at most one subtraction in each stage (R80 (b)). -/
def subtractOnceStages : Nat → Dw → Dw → Dw
  | 0, v, d => if dwGe v d then dwSub v d else v
  | j + 1, v, d => subtractOnceStages j (if dwGe v d then dwSub v d else v) (dwShr d)

/-- MODEXP_FN of R94 with every decoy update removed (R35, R101): the base and the result after `count` iterations. -/
def expLoopNoDecoy (msg e n : Word) : Nat → Word × Word
  | 0 => (msg, 1)
  | j + 1 =>
    let p := expLoopNoDecoy msg e n j
    (mmFn p.1 p.1 n, if e.getLsbD j then mmFn p.2 p.1 n else p.2)

end Sys2Proof.Machine
end

