-- ==== Sys2Proof/Certificates/Slice0/Obligations.lean ====
section
/-! DEFINITION. What is claimed of the DWC, from the numbered rules of the spec. -/

open Sys2Proof Sys2Proof.Machine

/-! ### Encoding (30_encoding) -/

/-- The worked words of 95_test_vectors decode to the commands they are shown with, one of each row of R57. -/
def Obligations.SampleWordsDecode : Prop :=
  decode 0x00001201 = .ok (.fromsingle 2 1) ∧ decode 0x00021302 = .ok (.add 3 1 2) ∧
  decode 0x00023403 = .ok (.sub 4 3 2) ∧ decode 0x00001204 = .ok (.shl 2 1) ∧
  decode 0x00001205 = .ok (.shr 2 1) ∧ decode 0x0FF01306 = .ok (.getbit 3 1 255) ∧
  decode 0x00013407 = .ok (.gt 4 3 1) ∧ decode 0x00016708 = .ok (.eq 7 6 1) ∧
  decode 0x00012410 = .ok (.reduce 4 2 1) ∧ decode 0x00022220 = .ok (.montmul 2 2 2) ∧
  decode 0x00043530 = .ok (.modexp 5 3 4)

/-- Decode and encode agree: no bit of a command is dropped. -/
def Obligations.DecodeOfEncode : Prop :=
  ∀ i : Instr, i.wf = true → decode (encode i) = .ok i

/-- Encodings are unique (D40): a value of CMD that decodes to a command is that command's one encoding, and the command
is well formed. -/
def Obligations.EncodeOfDecode : Prop :=
  ∀ (c : Word) (i : Instr), decode c = .ok i → i.wf = true ∧ encode i = c

/-- A word encodes a row exactly when `(w AND mask) == match` and `c[63:32] = 0` (R61, masks of R57). -/
def Obligations.MatchMaskSelectsRow : Prop :=
  ∀ (row : Instr) (c : Word),
    c &&& row.rowMask = row.opcode.setWidth 64 ↔ ∃ i, decode c = .ok i ∧ i.opcode = row.opcode

/-- Every opcode value outside the map is illegal: the command faults with code 1 and performs nothing, whatever its
other bits (R59). -/
def Obligations.UndefinedOpcodeFaults : Prop :=
  ∀ s : State, s.busy = true →
    s.pending.toNat % 256 ∉ [0x01, 0x02, 0x03, 0x04, 0x05, 0x06, 0x07, 0x08, 0x10, 0x20, 0x30] →
    ∃ t, engineStep s = .next t ∧ Faulted s t 1

/-- A defined opcode with a 1 in c[63:32], in c[31:28] or in a field its row does not use faults with code 2 and performs
nothing (R58), whatever MOD and the operands are (R106). -/
def Obligations.ReservedBitsFault : Prop :=
  ∀ s : State, s.busy = true →
    let c := s.pending.toNat
    let op := c % 256
    op ∈ [0x01, 0x02, 0x03, 0x04, 0x05, 0x06, 0x07, 0x08, 0x10, 0x20, 0x30] →
    (c / 2 ^ 32 ≠ 0 ∨ c / 2 ^ 28 % 16 ≠ 0 ∨ (op ≠ 0x06 ∧ c / 2 ^ 20 % 256 ≠ 0) ∨
      (op ∈ [0x01, 0x04, 0x05, 0x06] ∧ c / 2 ^ 16 % 16 ≠ 0)) →
    ∃ t, engineStep s = .next t ∧ Faulted s t 2

/-! ### The DoubleWidth ALU commands (40_doublewidth) -/

/-- FROMSINGLE (R64): the hi half of the source is ignored, W[rd] becomes {0, lo}, nothing else changes. -/
def Obligations.FromsingleResult : Prop :=
  ∀ (rd rs1 : Reg) (s : State),
    decode (fieldsWord 0x01 rd rs1 0 0) = .ok (.fromsingle rd rs1) ∧
    ∃ t, exec (.fromsingle rd rs1) s = .next t ∧ Completes s t rd 0 ∧
      t.readW rd = ⟨0, (s.readW rs1).lo⟩ ∧ (t.readW rd).val = (s.readW rs1).val % 2 ^ 64

/-- ADD (R65): the halves as the rule computes them, the value (a + b) mod 2^128 (R72), nothing else changes. -/
def Obligations.AddResult : Prop :=
  ∀ (rd rs1 rs2 : Reg) (s : State),
    let a := s.readW rs1
    let b := s.readW rs2
    decode (fieldsWord 0x02 rd rs1 rs2 0) = .ok (.add rd rs1 rs2) ∧
    ∃ t, exec (.add rd rs1 rs2) s = .next t ∧ Completes s t rd 0 ∧
      (t.readW rd).lo = a.lo + b.lo ∧
      (t.readW rd).hi = a.hi + b.hi + (if (a.lo + b.lo).toNat < a.lo.toNat then 1 else 0) ∧
      (t.readW rd).val = (a.val + b.val) % 2 ^ 128

/-- SUB (R66): the halves as the rule computes them, the value (a - b) mod 2^128 (R72), nothing else changes. -/
def Obligations.SubResult : Prop :=
  ∀ (rd rs1 rs2 : Reg) (s : State),
    let a := s.readW rs1
    let b := s.readW rs2
    decode (fieldsWord 0x03 rd rs1 rs2 0) = .ok (.sub rd rs1 rs2) ∧
    ∃ t, exec (.sub rd rs1 rs2) s = .next t ∧ Completes s t rd 0 ∧
      (t.readW rd).lo = a.lo - b.lo ∧
      (t.readW rd).hi = a.hi - b.hi - (if (a.lo - b.lo).toNat > a.lo.toNat then 1 else 0) ∧
      ((t.readW rd).val : Int) = ((a.val : Int) - b.val) % 2 ^ 128

/-- SHL (R67): left by one across the boundary, the value (2a) mod 2^128, nothing else changes. -/
def Obligations.ShlResult : Prop :=
  ∀ (rd rs1 : Reg) (s : State),
    let a := s.readW rs1
    decode (fieldsWord 0x04 rd rs1 0 0) = .ok (.shl rd rs1) ∧
    ∃ t, exec (.shl rd rs1) s = .next t ∧ Completes s t rd 0 ∧
      (t.readW rd).hi = (a.hi <<< 1) ||| (if a.lo.getLsbD 63 then 1 else 0) ∧
      (t.readW rd).lo = a.lo <<< 1 ∧
      (t.readW rd).val = 2 * a.val % 2 ^ 128

/-- SHR (R68): logical right by one across the boundary, the value floor(a / 2), nothing else changes. -/
def Obligations.ShrResult : Prop :=
  ∀ (rd rs1 : Reg) (s : State),
    let a := s.readW rs1
    decode (fieldsWord 0x05 rd rs1 0 0) = .ok (.shr rd rs1) ∧
    ∃ t, exec (.shr rd rs1) s = .next t ∧ Completes s t rd 0 ∧
      (t.readW rd).lo = (a.lo >>> 1) ||| (if a.hi.getLsbD 0 then 0x8000000000000000 else 0) ∧
      (t.readW rd).hi = a.hi >>> 1 ∧
      (t.readW rd).val = a.val / 2

/-- GETBIT (R69): bit i of the 128-bit value as 0 or 1, 0 for every index of 128 and above, nothing else changes. -/
def Obligations.GetbitResult : Prop :=
  ∀ (rd rs1 : Reg) (i : Nat) (s : State),
    let a := s.readW rs1
    (i ≤ 255 → decode (fieldsWord 0x06 rd rs1 0 i) = .ok (.getbit rd rs1 i)) ∧
    ∃ t, exec (.getbit rd rs1 i) s = .next t ∧ Completes s t rd 0 ∧
      t.readW rd = ⟨0, BitVec.ofNat 64 (a.val / 2 ^ i % 2)⟩ ∧
      (128 ≤ i → t.readW rd = ⟨0, 0⟩)

/-- GT (R70): upper halves first, then lower; the comparison is that of the numeric values; nothing else changes. -/
def Obligations.GtResult : Prop :=
  ∀ (rd rs1 rs2 : Reg) (s : State),
    let a := s.readW rs1
    let b := s.readW rs2
    decode (fieldsWord 0x07 rd rs1 rs2 0) = .ok (.gt rd rs1 rs2) ∧
    ∃ t, exec (.gt rd rs1 rs2) s = .next t ∧ Completes s t rd 0 ∧
      t.readW rd = ⟨0, if a.hi > b.hi ∨ (a.hi = b.hi ∧ a.lo > b.lo) then 1 else 0⟩ ∧
      (t.readW rd).val = if a.val > b.val then 1 else 0

/-- EQ (R71): 1 when both halves agree, 0 otherwise; nothing else changes. -/
def Obligations.EqResult : Prop :=
  ∀ (rd rs1 rs2 : Reg) (s : State),
    let a := s.readW rs1
    let b := s.readW rs2
    decode (fieldsWord 0x08 rd rs1 rs2 0) = .ok (.eq rd rs1 rs2) ∧
    ∃ t, exec (.eq rd rs1 rs2) s = .next t ∧ Completes s t rd 0 ∧
      t.readW rd = ⟨0, if a.hi = b.hi ∧ a.lo = b.lo then 1 else 0⟩ ∧
      (t.readW rd).val = if a.val = b.val then 1 else 0

/-- The source's laws of the ALU (R73): subtraction undoes addition, a right shift undoes a left shift that loses no bit,
and greaterThan with equals is the total order of the numeric values. -/
def Obligations.AluLaws : Prop :=
  (∀ a b : Dw, dwSub (dwAdd a b) b = a) ∧
  (∀ a : Dw, a.hi.getLsbD 63 = false → dwShr (dwShl a) = a) ∧
  (∀ a b : Dw, dwGt a b = decide (a.val > b.val) ∧ dwEq a b = decide (a.val = b.val)) ∧
  (∀ a b : Dw,
    (dwGt a b = true ∧ dwEq a b = false ∧ dwGt b a = false) ∨
    (dwGt a b = false ∧ dwEq a b = true ∧ dwGt b a = false) ∨
    (dwGt a b = false ∧ dwEq a b = false ∧ dwGt b a = true)) ∧
  (∀ a b c : Dw, dwGt a b = true → dwGt b c = true → dwGt a c = true)

/-! ### The Reducer (41_reducer) -/

/-- The Reducer's contract (R75): the exact remainder, for every 128-bit value and every modulus but 0. -/
def Obligations.ReducerIsRemainder : Prop :=
  ∀ v m : Dw, m.val ≠ 0 → ∃ r, reduceFn v m = .ok r ∧ r.val = v.val % m.val ∧ r.val < m.val

/-- The derived properties of REDUCE_FN (R80): (a) the result, (b) one subtraction a stage suffices, (c) at most 127
doublings, none of which loses a bit (so the bound of the model's loop, log 14, never ends it early), (d) idempotence. -/
def Obligations.ReducerStages : Prop :=
  ∀ v m : Dw, m.val ≠ 0 →
    let stage := doublingStage 127 v m 0
    (reduceLoops v m).val < m.val ∧ (reduceLoops v m).val = v.val % m.val ∧
    reduceLoops v m = subtractOnceStages stage.2 v stage.1 ∧
    stage.2 ≤ 127 ∧ stage.1.val = m.val * 2 ^ stage.2 ∧ (v.val ≤ stage.1.val ∨ 2 ^ 127 ≤ stage.1.val) ∧
    reduceLoops (reduceLoops v m) m = reduceLoops v m

/-- REDUCE (R79): the remainder for a nonzero modulus, RED_ZERO (code 4) for 0; nothing else changes. -/
def Obligations.ReduceResult : Prop :=
  ∀ (rd rs1 rs2 : Reg) (s : State),
    let v := s.readW rs1
    let m := s.readW rs2
    decode (fieldsWord 0x10 rd rs1 rs2 0) = .ok (.reduce rd rs1 rs2) ∧
    (m.val ≠ 0 → ∃ t, exec (.reduce rd rs1 rs2) s = .next t ∧ Completes s t rd 0 ∧
      (t.readW rd).val = v.val % m.val) ∧
    (m.val = 0 → ∃ t, exec (.reduce rd rs1 rs2) s = .next t ∧ Faulted s t 4)

/-! ### The Montgomery multiplier (42_montgomery) -/

/-- The bounds of R86: no addition of the loop wraps, T fits in one limb after step 4, the shift of step 5 loses no bit,
and the Reducer cannot fault. `S` is the sum of R83 over exact numbers. -/
def Obligations.MontgomeryBounds : Prop :=
  ∀ x y n : Word, n ≠ 0 →
    let m := bitlen n
    let bound := y.toNat + n.toNat
    (∀ i, i < m →
      let t := (montLoop x y n i).val
      let xi := x.toNat / 2 ^ i % 2
      let nu := (t % 2 + xi * (y.toNat % 2)) % 2
      let S := t + xi * y.toNat + nu * n.toNat
      t < bound ∧ S < 2 * bound ∧ 2 * bound < 2 ^ 66 ∧ (montLoop x y n (i + 1)).val = S / 2) ∧
    (montLoop x y n m).val < bound ∧
    let t := montCorrect (montLoop x y n m) n
    t.val < max y.toNat n.toNat ∧ t.hi = 0 ∧
    t.val * 2 ^ m < 2 ^ 128 ∧ (shlTimes m t).val = t.val * 2 ^ m ∧
    ∃ r, reduceFn (shlTimes m t) ⟨0, n⟩ = .ok r

/-- MM_FN computed in 64-bit halves is R84's algorithm over exact natural numbers, for EVERY modulus but 0, the even ones
too (R89), and its value is in [0, N) (R81). -/
def Obligations.MontgomeryExact : Prop :=
  ∀ x y n : Word, n ≠ 0 →
    (mmFn x y n).toNat = natMm x.toNat y.toNat n.toNat (bitlen n) ∧ (mmFn x y n).toNat < n.toNat

/-- The result law for odd N (R87): the ordinary modular product of (X mod 2^m) and Y. -/
def Obligations.MontgomeryProductOddModulus : Prop :=
  ∀ x y n : Word, n.toNat % 2 = 1 →
    (mmFn x y n).toNat = x.toNat % 2 ^ bitlen n * y.toNat % n.toNat ∧
    (x.toNat < 2 ^ bitlen n → (mmFn x y n).toNat = x.toNat * y.toNat % n.toNat)

/-- MONTMUL (R85): {0, MM_FN(X, Y, MOD)} from the low limbs and MMCNT + 1; MOD_ZERO (code 3) for MOD = 0; nothing else
changes. -/
def Obligations.MontmulResult : Prop :=
  ∀ (rd rs1 rs2 : Reg) (s : State),
    let n := s.modulus
    decode (fieldsWord 0x20 rd rs1 rs2 0) = .ok (.montmul rd rs1 rs2) ∧
    (n ≠ 0 → ∃ t, exec (.montmul rd rs1 rs2) s = .next t ∧ Completes s t rd 1 ∧
      (t.readW rd).hi = 0 ∧
      (t.readW rd).lo.toNat = natMm (s.readW rs1).lo.toNat (s.readW rs2).lo.toNat n.toNat (bitlen n)) ∧
    (n = 0 → ∃ t, exec (.montmul rd rs1 rs2) s = .next t ∧ Faulted s t 3)

/-! ### The ModExp datapath (43_modexp) -/

/-- MODEXP (R97): {0, MODEXP_FN(msg, e, MOD, EXPBITS)} from the low limbs, computed here over exact natural numbers (R94),
and MMCNT + 2K (R96); MOD_ZERO (code 3) for MOD = 0; nothing else changes. -/
def Obligations.ModexpResult : Prop :=
  ∀ (rd rs1 rs2 : Reg) (s : State),
    let n := s.modulus
    let k := s.expbits.toNat
    decode (fieldsWord 0x30 rd rs1 rs2 0) = .ok (.modexp rd rs1 rs2) ∧
    (n ≠ 0 → ∃ t, exec (.modexp rd rs1 rs2) s = .next t ∧ Completes s t rd (2 * k) ∧
      (t.readW rd).hi = 0 ∧
      (t.readW rd).lo.toNat =
        (natExpLoop (s.readW rs1).lo.toNat (s.readW rs2).lo.toNat n.toNat (bitlen n) k).2) ∧
    (n = 0 → ∃ t, exec (.modexp rd rs1 rs2) s = .next t ∧ Faulted s t 3)

/-- The result law (R98): for odd N >= 3 and msg < 2^m the result is msg^(e mod 2^K) mod N; hence the source's round trip
for K = 64 and a valid key pair (E, D), one whose product exponent returns every residue. -/
def Obligations.ModexpIsPower : Prop :=
  (∀ (msg e n : Word) (k : Nat), n.toNat % 2 = 1 → 3 ≤ n.toNat → msg.toNat < 2 ^ bitlen n → 1 ≤ k → k ≤ 64 →
    (modexpFn msg e n k).toNat = msg.toNat ^ (e.toNat % 2 ^ k) % n.toNat) ∧
  (∀ msg e d n : Word, n.toNat % 2 = 1 → 3 ≤ n.toNat → msg.toNat < n.toNat →
    (∀ x, x < n.toNat → x ^ (e.toNat * d.toNat) % n.toNat = x) →
    modexpFn (modexpFn msg e n 64) d n 64 = msg)

/-- Messages of m bits or more (R99): the first square reads only the low m bits of msg; so the value is in general not
msg^e' mod N, as the example of 95_test_vectors section 4 shows. -/
def Obligations.ModexpOutOfRangeMessage : Prop :=
  (modexpFn 20 2 13 64 = 2 ∧ 20 ^ 2 % 13 ≠ 2) ∧
  ∀ (msg e n : Word) (k : Nat), n.toNat % 2 = 1 → 2 ^ bitlen n ≤ msg.toNat → 1 ≤ k → k ≤ 64 →
    let e' := e.toNat % 2 ^ k
    let t1 := msg.toNat % 2 ^ bitlen n * msg.toNat % n.toNat
    (e' = 0 → modexpFn msg e n k = 1) ∧
    (e' ≠ 0 → (modexpFn msg e n k).toNat =
      (msg.toNat ^ (e' % 2) *
        ∏ j ∈ (Finset.Icc 1 (k - 1)).filter (fun j => e' / 2 ^ j % 2 = 1), t1 ^ 2 ^ (j - 1) % n.toNat) % n.toNat)

/-- The empty exponent (R100): with e[K-1:0] = 0 the result is 1 for every msg and every N but 0; for N = 1 it is no
residue, for N >= 2 it is msg^0 mod N. -/
def Obligations.ModexpEmptyExponent : Prop :=
  ∀ (msg e n : Word) (k : Nat), n ≠ 0 → k ≤ 64 → e.toNat % 2 ^ k = 0 →
    modexpFn msg e n k = 1 ∧
    (n.toNat = 1 → ¬(modexpFn msg e n k).toNat < n.toNat) ∧
    (2 ≤ n.toNat → (modexpFn msg e n k).toNat = msg.toNat ^ 0 % n.toNat)

/-- Decoy non-interference (R35, R101): MODEXP with every decoy update removed returns the same value. -/
def Obligations.DecoyNonInterference : Prop :=
  ∀ (msg e n : Word) (k : Nat), modexpFn msg e n k = (expLoopNoDecoy msg e n k).2

/-- What MONTMUL and MODEXP do not read (R82, R85, R91): the hi halves, the bits of X at m and above, the bits of the
exponent at K and above, and every other part of the state. -/
def Obligations.UnreadOperandBits : Prop :=
  ∀ (rd rs1 rs2 : Reg) (s s' : State), s.modulus ≠ 0 → s'.modulus = s.modulus →
    ((s.readW rs1).lo.toNat % 2 ^ bitlen s.modulus = (s'.readW rs1).lo.toNat % 2 ^ bitlen s.modulus →
      (s.readW rs2).lo = (s'.readW rs2).lo →
      ∃ t t', exec (.montmul rd rs1 rs2) s = .next t ∧ exec (.montmul rd rs1 rs2) s' = .next t' ∧
        t.readW rd = t'.readW rd) ∧
    (s'.expbits = s.expbits → (s.readW rs1).lo = (s'.readW rs1).lo →
      (s.readW rs2).lo.toNat % 2 ^ s.expbits.toNat = (s'.readW rs2).lo.toNat % 2 ^ s.expbits.toNat →
      ∃ t t', exec (.modexp rd rs1 rs2) s = .next t ∧ exec (.modexp rd rs1 rs2) s' = .next t' ∧
        t.readW rd = t'.readW rd)

/-! ### The engine (10_state, 60_exceptions) -/

/-- What a step does when the engine has its turn, with no input waiting or at an engine slot, which is then taken from the
inputs: with BUSY = 1 it is exec of the command that PENDING decodes to, or, where PENDING does not decode, the entry of the
decoder's fault (R33, R58, R59); with BUSY = 0 the engine step is not enabled and all state is kept (R33, R117). -/
def Obligations.StepRunsDecodedCommand : Prop :=
  ∀ s : State,
    (∀ i, s.busy = true → decode s.pending = .ok i →
      (s.inputs = [] → step s = exec i s) ∧
      (∀ rest, s.inputs = .engineSlot :: rest → step s = exec i { s with inputs := rest })) ∧
    (∀ f, s.busy = true → decode s.pending = .error f →
      (s.inputs = [] → ∃ t, step s = .next t ∧ Faulted s t (faultCode f)) ∧
      (∀ rest, s.inputs = .engineSlot :: rest →
        ∃ t, step s = .next t ∧ Faulted { s with inputs := rest } t (faultCode f))) ∧
    (s.busy = false →
      (s.inputs = [] → step s = .next s) ∧
      (∀ rest, s.inputs = .engineSlot :: rest → step s = .next { s with inputs := rest }))

/-- The engine step (R33, R103, R105): every command ends in one step with BUSY = 0, either completed (DONE = 1, of the W
registers at most the one that its field rd, PENDING[11:8], names, and MMCNT written) or faulted (ERR, ERRCODE, ERRCMD
written, no W register and no MMCNT write). -/
def Obligations.CommandCompletesOrFaults : Prop :=
  ∀ s : State, s.busy = true → ∃ t, engineStep s = .next t ∧ t.busy = false ∧
    ((∃ i, decode s.pending = .ok i ∧ (∀ j, j ≠ rdField s.pending → t.readW j = s.readW j) ∧
        t = { s with w := t.w, mmcnt := t.mmcnt, done := true, busy := false }) ∨
      (∃ code, 1 ≤ code.toNat ∧ code.toNat ≤ 4 ∧ Faulted s t code))

/-- For every command, over all of them (R33): "No state other than the W register `rd`, MMCNT, STATUS and ERRCMD is
written by a command", where rd is the command's own destination, the field its encoding holds in bits [11:8] (R54), and OVR
is not among the STATUS bits it writes; and a command that writes MMCNT is MONTMUL or MODEXP. -/
def Obligations.CommandWritesNothingElse : Prop :=
  ∀ (i : Instr) (s : State), ∃ t, exec i s = .next t ∧
    t = { s with
      w := t.w, mmcnt := t.mmcnt, busy := t.busy, done := t.done, err := t.err, errcode := t.errcode,
      errcmd := t.errcmd } ∧
    (i.opcode ≠ 0x20 → i.opcode ≠ 0x30 → t.mmcnt = s.mmcnt) ∧
    (∀ j, j ≠ i.rd → t.readW j = s.readW j) ∧
    rdField (encode i) = i.rd

/-! ### The host's window (10_state, 20_memory) -/

/-- A host write of CMD (R26): accepted undecoded when the block is neither busy nor in error, dropped with OVR
otherwise; a read returns 0. -/
def Obligations.CommandAcceptance : Prop :=
  (∀ (s : State) (c : Word) (rest : List Input), s.HostDoes (writeAt 0x018 c) rest →
    (s.busy = false ∧ s.err = false → step s = .next { s with
      inputs := rest, response := some .written, pending := c, done := false, busy := true }) ∧
    (¬(s.busy = false ∧ s.err = false) → step s = .next { s with
      inputs := rest, response := some .written, ovr := true })) ∧
  (∀ (s : State) (rest : List Input), s.HostDoes (readAt 0x018) rest → s.Answers rest 0)

/-- Host writes while BUSY = 1 (R46): dropped with OVR for CMD, MOD, EXPBITS, MMCNT and every W half (for EXPBITS whatever
the value: log 8); STATUS and CTRL as at any other time. -/
def Obligations.BusyWritesAreDropped : Prop :=
  ∀ (s : State) (off : Nat) (v : Word) (rest : List Input), s.HostDoes (writeAt off v) rest → s.busy = true →
    (off ∈ [0x018, 0x028, 0x038, 0x040] ∨ (0x100 ≤ off ∧ off < 0x200 ∧ off % 8 = 0) →
      step s = .next { s with inputs := rest, response := some .written, ovr := true }) ∧
    (off = 0x010 → step s = .next { s with inputs := rest, response := some .written, ie := v.getLsbD 0 }) ∧
    (off = 0x008 → step s = .next { s with
      inputs := rest, response := some .written,
      done := s.done && !v.getLsbD 1, err := s.err && !v.getLsbD 2, ovr := s.ovr && !v.getLsbD 3,
      errcode := if v.getLsbD 2 then 0 else s.errcode })

/-- Host reads while BUSY = 1 (R47): a W half or MMCNT returns the draw of this moment, a free value; the other registers
return their current values. -/
def Obligations.BusyReadsAreDraws : Prop :=
  ∀ (s : State) (off : Nat) (rest : List Input), s.HostDoes (readAt off) rest → s.busy = true →
    (off = 0x040 ∨ (0x100 ≤ off ∧ off < 0x200 ∧ off % 8 = 0) →
      step s = .next { s with
        inputs := rest, response := some (.data (toLanes (Config.freeWord s.draws))), draws := s.draws + 1 }) ∧
    (off = 0x000 → s.Answers rest 0x000000074457414C) ∧
    (off = 0x008 → s.Answers rest s.statusWord) ∧
    (off = 0x010 → s.Answers rest (if s.ie then 1 else 0)) ∧
    (off = 0x018 → s.Answers rest 0) ∧
    (off = 0x020 → s.Answers rest s.errcmd) ∧
    (off = 0x028 → s.Answers rest s.modulus) ∧
    (off = 0x030 → s.Answers rest (BitVec.ofNat 64 (bitlen s.modulus))) ∧
    (off = 0x038 → s.Answers rest (BitVec.ofNat 64 s.expbits.toNat)) ∧
    (0x048 ≤ off ∧ off < 0x100 ∧ off % 8 = 0 → s.Answers rest 0)

/-- Host reads while BUSY = 0 (the map of R17): every register of the window returns its value. -/
def Obligations.IdleReadsReturnRegisters : Prop :=
  ∀ (s : State) (off : Nat) (rest : List Input), s.HostDoes (readAt off) rest → s.busy = false →
    (off = 0x000 → s.Answers rest 0x000000074457414C) ∧
    (off = 0x008 → s.Answers rest s.statusWord) ∧
    (off = 0x010 → s.Answers rest (if s.ie then 1 else 0)) ∧
    (off = 0x018 → s.Answers rest 0) ∧
    (off = 0x020 → s.Answers rest s.errcmd) ∧
    (off = 0x028 → s.Answers rest s.modulus) ∧
    (off = 0x030 → s.Answers rest (BitVec.ofNat 64 (bitlen s.modulus))) ∧
    (off = 0x038 → s.Answers rest (BitVec.ofNat 64 s.expbits.toNat)) ∧
    (off = 0x040 → s.Answers rest s.mmcnt) ∧
    (0x048 ≤ off ∧ off < 0x100 ∧ off % 8 = 0 → s.Answers rest 0) ∧
    (∀ i : Reg, (off = 0x100 + 16 * i.val → s.Answers rest (s.readW i).lo) ∧
      (off = 0x108 + 16 * i.val → s.Answers rest (s.readW i).hi))

/-- No read has a side effect (R44): whatever is read and whenever, no register changes; only the model's own answer and
draw counter do. -/
def Obligations.ReadsHaveNoSideEffect : Prop :=
  ∀ (s : State) (addr n : Nat) (rest : List Input), s.HostDoes (.read addr n) rest →
    ∃ t, step s = .next t ∧ t = { s with inputs := rest, response := t.response, draws := t.draws }

/-- An access of another width, at an offset that is no multiple of 8, or outside the window gets a bus error and changes
no DWC state, not even OVR (R39). -/
def Obligations.BadAccessIsBusError : Prop :=
  ∀ (s : State) (a : HostAccess) (addr n : Nat) (rest : List Input), s.HostDoes a rest →
    (a = .read addr n ∨ ∃ data : List Byte, data.length = n ∧ a = .write addr data) →
    (n ≠ 8 ∨ addr < Config.base ∨ (addr - Config.base) % 8 ≠ 0 ∨ Config.base + 0x200 ≤ addr) →
    step s = .next { s with inputs := rest, response := some (.busError Config.hostBusError) }

/-- A host write of STATUS (R24): all write-1-to-clear bits at once, DONE by bit 1 (R20), ERR with ERRCODE by bit 2 (R21),
OVR by bit 3 (R22); the other bits are ignored; a 0 leaves a bit unchanged. -/
def Obligations.StatusWriteClears : Prop :=
  ∀ (s : State) (v : Word) (rest : List Input), s.HostDoes (writeAt 0x008 v) rest →
    ∃ t, step s = .next t ∧
      t = { s with
        inputs := rest, response := some .written, done := t.done, err := t.err, ovr := t.ovr, errcode := t.errcode } ∧
      t.done = (if v.toNat / 2 % 2 = 1 then false else s.done) ∧
      t.err = (if v.toNat / 4 % 2 = 1 then false else s.err) ∧
      t.ovr = (if v.toNat / 8 % 2 = 1 then false else s.ovr) ∧
      t.errcode = (if v.toNat / 4 % 2 = 1 then 0 else s.errcode)

/-- The layout of STATUS (R19-R24): BUSY bit 0, DONE bit 1, ERR bit 2, OVR bit 3, ERRCODE [11:8], the rest 0. -/
def Obligations.StatusLayout : Prop :=
  ∀ s : State, s.statusWord.toNat =
    s.busy.toNat + 2 * s.done.toNat + 4 * s.err.toNat + 8 * s.ovr.toNat + 256 * s.errcode.toNat

/-- Host writes of the plain registers: CTRL keeps bit 0 as IE at any time (R25); MOD and MMCNT store every value while
BUSY = 0 (R28, R31). -/
def Obligations.PlainRegisterWrites : Prop :=
  ∀ (s : State) (v : Word) (rest : List Input),
    (s.HostDoes (writeAt 0x010 v) rest → step s = .next { s with
      inputs := rest, response := some .written, ie := decide (v.toNat % 2 = 1) }) ∧
    (s.HostDoes (writeAt 0x028 v) rest → s.busy = false → step s = .next { s with
      inputs := rest, response := some .written, modulus := v }) ∧
    (s.HostDoes (writeAt 0x040 v) rest → s.busy = false → step s = .next { s with
      inputs := rest, response := some .written, mmcnt := v })

/-- A host write of EXPBITS while BUSY = 0 (R30): stored when 1 to 64, ignored otherwise, OVR not set; a read returns the
stored value zero-extended. -/
def Obligations.ExpbitsKeepsLegalValue : Prop :=
  (∀ (s : State) (v : Word) (rest : List Input), s.HostDoes (writeAt 0x038 v) rest → s.busy = false →
    ∃ t, step s = .next t ∧ t = { s with inputs := rest, response := some .written, expbits := t.expbits } ∧
      t.expbits.toNat = if 1 ≤ v.toNat ∧ v.toNat ≤ 64 then v.toNat else s.expbits.toNat) ∧
  (∀ (s : State) (rest : List Input), s.HostDoes (readAt 0x038) rest →
    s.Answers rest (BitVec.ofNat 64 s.expbits.toNat))

/-- A host write of one W half while BUSY = 0 (R40): that half, at 0x100 + 16i or 0x108 + 16i; the other half and every
other register are unchanged. -/
def Obligations.HalfWriteLeavesOtherHalf : Prop :=
  ∀ (s : State) (i : Reg) (v : Word) (rest : List Input), s.busy = false →
    (s.HostDoes (writeAt (0x100 + 16 * i.val) v) rest →
      ∃ t, step s = .next t ∧ t.readW i = ⟨(s.readW i).hi, v⟩ ∧ (∀ j, j ≠ i → t.readW j = s.readW j) ∧
        t = { s with inputs := rest, response := some .written, w := t.w }) ∧
    (s.HostDoes (writeAt (0x108 + 16 * i.val) v) rest →
      ∃ t, step s = .next t ∧ t.readW i = ⟨v, (s.readW i).lo⟩ ∧ (∀ j, j ≠ i → t.readW j = s.readW j) ∧
        t = { s with inputs := rest, response := some .written, w := t.w })

/-- Writes to ID, ERRCMD, MLEN (R45) and to the reserved offsets 0x048 to 0x0F8 (R43) are ignored and do not set OVR. -/
def Obligations.ReadOnlyWritesIgnored : Prop :=
  ∀ (s : State) (off : Nat) (v : Word) (rest : List Input), s.HostDoes (writeAt off v) rest →
    (off ∈ [0x000, 0x020, 0x030] ∨ (0x048 ≤ off ∧ off < 0x100 ∧ off % 8 = 0)) →
    step s = .next { s with inputs := rest, response := some .written }

/-- Little-endian lanes (R41): byte k carries bits [8k+7:8k]; a write's lanes give its value back; W[i] seen as the 16
bytes at 0x100 + 16i is a little-endian 128-bit integer. -/
def Obligations.LittleEndianLanes : Prop :=
  (∀ (v : Word) (k : Nat), k < 8 →
    (toLanes v)[k]? = some (laneByte v k) ∧ (laneByte v k).toNat = v.toNat / 2 ^ (8 * k) % 256) ∧
  (∀ v : Word, fromLanes (toLanes v) = v) ∧
  (∀ (s : State) (i : Reg),
    lanesVal ((List.range 16).map fun k => s.windowByte (0x100 + 16 * i.val + k)) = (s.readW i).val)

/-- MLEN is the bit length of MOD (R29, R5): ceil(log2(N + 1)), 0 to 64, with 2^(m-1) <= N < 2^m for N != 0. -/
def Obligations.MlenIsBitLength : Prop :=
  ∀ s : State, s.mlen = Nat.clog 2 (s.modulus.toNat + 1) ∧ s.mlen ≤ 64 ∧ s.modulus.toNat < 2 ^ s.mlen ∧
    (s.modulus ≠ 0 → 2 ^ (s.mlen - 1) ≤ s.modulus.toNat)

/-- Operand snapshot (R123): while a command waits for its engine step, no host access changes a W register, MOD, EXPBITS,
MMCNT or the latched word, nor ends the command. -/
def Obligations.OperandSnapshot : Prop :=
  ∀ (s : State) (a : HostAccess) (rest : List Input), s.HostDoes a rest → s.busy = true →
    ∃ t, step s = .next t ∧ t.w = s.w ∧ t.modulus = s.modulus ∧ t.expbits = s.expbits ∧ t.mmcnt = s.mmcnt ∧
      t.pending = s.pending ∧ t.busy = true

/-- Return from a fault (R108): after a write of STATUS with bit 2 = 1 ERR and ERRCODE are clear, ERRCMD keeps the faulting
word, DONE and OVR follow their own bits of the write, and no other register has changed, CTRL.IE among them; the next CMD
write is accepted. -/
def Obligations.ReturnFromFault : Prop :=
  ∀ (s : State) (v c : Word) (rest : List Input), s.inReset = false → s.busy = false → v.getLsbD 2 = true →
    s.inputs = .access (writeAt 0x008 v) :: .access (writeAt 0x018 c) :: rest →
    ∃ t, step s = .next t ∧
      t = { s with
        err := false, errcode := 0, done := s.done && !v.getLsbD 1, ovr := s.ovr && !v.getLsbD 3,
        inputs := .access (writeAt 0x018 c) :: rest, response := some .written } ∧
      step t = .next { t with
        pending := c, done := false, busy := true, inputs := rest, response := some .written }

/-- OVR and ERR are sticky (R21, R22): once 1, a step leaves them 1 unless it is a host write of STATUS with their bit, or
the assertion of reset. -/
def Obligations.StickyUntilCleared : Prop :=
  ∀ s t : State, step s = .next t →
    (s.ovr = true → t.ovr = false →
      (∃ v rest, s.inputs = .access (.write (Config.base + 0x008) v) :: rest ∧ (fromLanes v).getLsbD 3 = true) ∨
      ∃ rest, s.inputs = .assertReset :: rest) ∧
    (s.err = true → t.err = false →
      (∃ v rest, s.inputs = .access (.write (Config.base + 0x008) v) :: rest ∧ (fromLanes v).getLsbD 2 = true) ∨
      ∃ rest, s.inputs = .assertReset :: rest)

/-- The interrupt output (R110): the level IE AND (DONE OR ERR), on IRQ_LINE and on no other line; OVR does not assert it;
clearing its sources, or IE, clears it; a pending source asserts it as soon as IE is set. -/
def Obligations.InterruptLevel : Prop :=
  ∀ s : State,
    (s.irq = true ↔ s.ie = true ∧ (s.done = true ∨ s.err = true)) ∧
    (∀ line, s.interruptLine line = true ↔ line = Config.irqLine ∧ s.irq = true) ∧
    ({ s with ovr := !s.ovr }).irq = s.irq ∧
    (s.clearStatus 0x6).irq = false ∧
    ({ s with ie := false }).irq = false ∧
    (s.done = true ∨ s.err = true → ({ s with ie := true }).irq = true)

/-! ### Reset (70_reset_and_hazards) -/

/-- The reset state of every piece of DWC state (R118). -/
def Obligations.ResetValues : Prop :=
  (∀ i : Reg, State.reset.readW i = ⟨0, 0⟩) ∧ State.reset.regValue .id = 0x000000074457414C ∧
  State.reset.busy = false ∧ State.reset.done = false ∧ State.reset.err = false ∧ State.reset.ovr = false ∧
  State.reset.errcode = 0 ∧ State.reset.ie = false ∧ State.reset.errcmd = 0 ∧ State.reset.modulus = 0 ∧
  State.reset.mlen = 0 ∧ State.reset.expbits.toNat = 64 ∧ State.reset.mmcnt = 0 ∧ State.reset.pending = 0 ∧
  State.reset.irq = false

/-- Asserting reset at any time, a running command or not, puts every item of R118 at its reset value (R119). That a
release changes nothing but the input's level, and that the model's own fields stay, is the model's choice (log 7, 11). -/
def Obligations.ResetAbandonsEverything : Prop :=
  ∀ (s : State) (rest : List Input),
    (s.inputs = .assertReset :: rest → step s = .next { State.reset with
      inReset := true, inputs := rest, response := s.response, draws := s.draws }) ∧
    (s.inputs = .releaseReset :: rest → step s = .next { s with inReset := false, inputs := rest })

/-! ### Whole-machine claims -/

/-- The invariant holds at reset. -/
def Obligations.ResetMeetsInvariant : Prop := State.reset.Inv

/-- Every step keeps the invariant: EXPBITS legal (R30), ERRCODE 0 while ERR = 0 (R23) and otherwise the reason why the
word in ERRCMD faulted (R27, R102), DONE and ERR never together (R106), a running command accepted in a clean state (R26),
every register at its reset value while reset is asserted (R119). -/
def Obligations.StepKeepsInvariant : Prop :=
  ∀ s t : State, s.Inv → step s = .next t → t.Inv

/-- The machine never stops (R126) but for a host access during reset (R119), and a host that keeps off the window during
reset never meets that stop. The refusal is the model's form of the spec's `refuse` (log 7). -/
def Obligations.OnlyAccessInResetStops : Prop :=
  (∀ s : State, (¬∃ t, step s = .next t) ↔ s.inReset = true ∧ ∃ a rest, s.inputs = .access a :: rest) ∧
  (∀ s : State, s.HostKeepsOff → ∃ t, step s = .next t ∧ t.HostKeepsOff)

/-- The engine step is eventually taken (R126, weak fairness): once the inputs are used up and one more step is taken, no
command is left running. That the engine runs when no input waits is the model's scheduling (log 1). -/
def Obligations.EveryCommandEnds : Prop :=
  ∀ s : State, s.HostKeepsOff →
    ∃ t, core.run (s.inputs.length + 1) s = .next t ∧ t.inputs = [] ∧ t.busy = false
end

