-- ==== Sys2Proof/Laws/State.lean ====
section
/-! SUPPORT. One lemma per field per update of State, true by rfl, so that no proof unfolds a record update. -/

namespace Sys2Proof.Machine

variable (s : State)

@[simp] theorem State.writeW_w (i : Reg) (v : Dw) : (s.writeW i v).w = s.w.set i.val v := rfl
@[simp] theorem State.writeW_busy (i : Reg) (v : Dw) : (s.writeW i v).busy = s.busy := rfl
@[simp] theorem State.writeW_done (i : Reg) (v : Dw) : (s.writeW i v).done = s.done := rfl
@[simp] theorem State.writeW_err (i : Reg) (v : Dw) : (s.writeW i v).err = s.err := rfl
@[simp] theorem State.writeW_ovr (i : Reg) (v : Dw) : (s.writeW i v).ovr = s.ovr := rfl
@[simp] theorem State.writeW_errcode (i : Reg) (v : Dw) : (s.writeW i v).errcode = s.errcode := rfl
@[simp] theorem State.writeW_ie (i : Reg) (v : Dw) : (s.writeW i v).ie = s.ie := rfl
@[simp] theorem State.writeW_errcmd (i : Reg) (v : Dw) : (s.writeW i v).errcmd = s.errcmd := rfl
@[simp] theorem State.writeW_modulus (i : Reg) (v : Dw) : (s.writeW i v).modulus = s.modulus := rfl
@[simp] theorem State.writeW_expbits (i : Reg) (v : Dw) : (s.writeW i v).expbits = s.expbits := rfl
@[simp] theorem State.writeW_mmcnt (i : Reg) (v : Dw) : (s.writeW i v).mmcnt = s.mmcnt := rfl
@[simp] theorem State.writeW_pending (i : Reg) (v : Dw) : (s.writeW i v).pending = s.pending := rfl
@[simp] theorem State.writeW_inReset (i : Reg) (v : Dw) : (s.writeW i v).inReset = s.inReset := rfl
@[simp] theorem State.writeW_inputs (i : Reg) (v : Dw) : (s.writeW i v).inputs = s.inputs := rfl
@[simp] theorem State.writeW_response (i : Reg) (v : Dw) : (s.writeW i v).response = s.response := rfl
@[simp] theorem State.writeW_draws (i : Reg) (v : Dw) : (s.writeW i v).draws = s.draws := rfl

@[simp] theorem State.complete_w (rd : Reg) (v : Dw) : (s.complete rd v).w = s.w.set rd.val v := rfl
@[simp] theorem State.complete_busy (rd : Reg) (v : Dw) : (s.complete rd v).busy = false := rfl
@[simp] theorem State.complete_done (rd : Reg) (v : Dw) : (s.complete rd v).done = true := rfl
@[simp] theorem State.complete_err (rd : Reg) (v : Dw) : (s.complete rd v).err = s.err := rfl
@[simp] theorem State.complete_ovr (rd : Reg) (v : Dw) : (s.complete rd v).ovr = s.ovr := rfl
@[simp] theorem State.complete_errcode (rd : Reg) (v : Dw) : (s.complete rd v).errcode = s.errcode := rfl
@[simp] theorem State.complete_ie (rd : Reg) (v : Dw) : (s.complete rd v).ie = s.ie := rfl
@[simp] theorem State.complete_errcmd (rd : Reg) (v : Dw) : (s.complete rd v).errcmd = s.errcmd := rfl
@[simp] theorem State.complete_modulus (rd : Reg) (v : Dw) : (s.complete rd v).modulus = s.modulus := rfl
@[simp] theorem State.complete_expbits (rd : Reg) (v : Dw) : (s.complete rd v).expbits = s.expbits := rfl
@[simp] theorem State.complete_mmcnt (rd : Reg) (v : Dw) : (s.complete rd v).mmcnt = s.mmcnt := rfl
@[simp] theorem State.complete_pending (rd : Reg) (v : Dw) : (s.complete rd v).pending = s.pending := rfl
@[simp] theorem State.complete_inReset (rd : Reg) (v : Dw) : (s.complete rd v).inReset = s.inReset := rfl
@[simp] theorem State.complete_inputs (rd : Reg) (v : Dw) : (s.complete rd v).inputs = s.inputs := rfl
@[simp] theorem State.complete_response (rd : Reg) (v : Dw) : (s.complete rd v).response = s.response := rfl
@[simp] theorem State.complete_draws (rd : Reg) (v : Dw) : (s.complete rd v).draws = s.draws := rfl

@[simp] theorem State.takeFault_w (f : CmdFault) : (s.takeFault f).w = s.w := rfl
@[simp] theorem State.takeFault_busy (f : CmdFault) : (s.takeFault f).busy = false := rfl
@[simp] theorem State.takeFault_done (f : CmdFault) : (s.takeFault f).done = s.done := rfl
@[simp] theorem State.takeFault_err (f : CmdFault) : (s.takeFault f).err = true := rfl
@[simp] theorem State.takeFault_ovr (f : CmdFault) : (s.takeFault f).ovr = s.ovr := rfl
@[simp] theorem State.takeFault_errcode (f : CmdFault) : (s.takeFault f).errcode = faultCode f := rfl
@[simp] theorem State.takeFault_ie (f : CmdFault) : (s.takeFault f).ie = s.ie := rfl
@[simp] theorem State.takeFault_errcmd (f : CmdFault) : (s.takeFault f).errcmd = s.pending := rfl
@[simp] theorem State.takeFault_modulus (f : CmdFault) : (s.takeFault f).modulus = s.modulus := rfl
@[simp] theorem State.takeFault_expbits (f : CmdFault) : (s.takeFault f).expbits = s.expbits := rfl
@[simp] theorem State.takeFault_mmcnt (f : CmdFault) : (s.takeFault f).mmcnt = s.mmcnt := rfl
@[simp] theorem State.takeFault_pending (f : CmdFault) : (s.takeFault f).pending = s.pending := rfl
@[simp] theorem State.takeFault_inReset (f : CmdFault) : (s.takeFault f).inReset = s.inReset := rfl
@[simp] theorem State.takeFault_inputs (f : CmdFault) : (s.takeFault f).inputs = s.inputs := rfl
@[simp] theorem State.takeFault_response (f : CmdFault) : (s.takeFault f).response = s.response := rfl
@[simp] theorem State.takeFault_draws (f : CmdFault) : (s.takeFault f).draws = s.draws := rfl

@[simp] theorem State.countProducts_w (n : Nat) : (s.countProducts n).w = s.w := rfl
@[simp] theorem State.countProducts_busy (n : Nat) : (s.countProducts n).busy = s.busy := rfl
@[simp] theorem State.countProducts_done (n : Nat) : (s.countProducts n).done = s.done := rfl
@[simp] theorem State.countProducts_err (n : Nat) : (s.countProducts n).err = s.err := rfl
@[simp] theorem State.countProducts_ovr (n : Nat) : (s.countProducts n).ovr = s.ovr := rfl
@[simp] theorem State.countProducts_errcode (n : Nat) : (s.countProducts n).errcode = s.errcode := rfl
@[simp] theorem State.countProducts_ie (n : Nat) : (s.countProducts n).ie = s.ie := rfl
@[simp] theorem State.countProducts_errcmd (n : Nat) : (s.countProducts n).errcmd = s.errcmd := rfl
@[simp] theorem State.countProducts_modulus (n : Nat) : (s.countProducts n).modulus = s.modulus := rfl
@[simp] theorem State.countProducts_expbits (n : Nat) : (s.countProducts n).expbits = s.expbits := rfl
@[simp] theorem State.countProducts_mmcnt (n : Nat) : (s.countProducts n).mmcnt = s.mmcnt + BitVec.ofNat 64 n := rfl
@[simp] theorem State.countProducts_pending (n : Nat) : (s.countProducts n).pending = s.pending := rfl
@[simp] theorem State.countProducts_inReset (n : Nat) : (s.countProducts n).inReset = s.inReset := rfl
@[simp] theorem State.countProducts_inputs (n : Nat) : (s.countProducts n).inputs = s.inputs := rfl
@[simp] theorem State.countProducts_response (n : Nat) : (s.countProducts n).response = s.response := rfl
@[simp] theorem State.countProducts_draws (n : Nat) : (s.countProducts n).draws = s.draws := rfl

@[simp] theorem State.clearStatus_w (v : Word) : (s.clearStatus v).w = s.w := rfl
@[simp] theorem State.clearStatus_busy (v : Word) : (s.clearStatus v).busy = s.busy := rfl
@[simp] theorem State.clearStatus_done (v : Word) : (s.clearStatus v).done = (s.done && !v.getLsbD 1) := rfl
@[simp] theorem State.clearStatus_err (v : Word) : (s.clearStatus v).err = (s.err && !v.getLsbD 2) := rfl
@[simp] theorem State.clearStatus_ovr (v : Word) : (s.clearStatus v).ovr = (s.ovr && !v.getLsbD 3) := rfl
@[simp] theorem State.clearStatus_errcode (v : Word) : (s.clearStatus v).errcode = (if v.getLsbD 2 then 0 else s.errcode) := rfl
@[simp] theorem State.clearStatus_ie (v : Word) : (s.clearStatus v).ie = s.ie := rfl
@[simp] theorem State.clearStatus_errcmd (v : Word) : (s.clearStatus v).errcmd = s.errcmd := rfl
@[simp] theorem State.clearStatus_modulus (v : Word) : (s.clearStatus v).modulus = s.modulus := rfl
@[simp] theorem State.clearStatus_expbits (v : Word) : (s.clearStatus v).expbits = s.expbits := rfl
@[simp] theorem State.clearStatus_mmcnt (v : Word) : (s.clearStatus v).mmcnt = s.mmcnt := rfl
@[simp] theorem State.clearStatus_pending (v : Word) : (s.clearStatus v).pending = s.pending := rfl
@[simp] theorem State.clearStatus_inReset (v : Word) : (s.clearStatus v).inReset = s.inReset := rfl
@[simp] theorem State.clearStatus_inputs (v : Word) : (s.clearStatus v).inputs = s.inputs := rfl
@[simp] theorem State.clearStatus_response (v : Word) : (s.clearStatus v).response = s.response := rfl
@[simp] theorem State.clearStatus_draws (v : Word) : (s.clearStatus v).draws = s.draws := rfl

@[simp] theorem State.accept_w (c : Word) : (s.accept c).w = s.w := rfl
@[simp] theorem State.accept_busy (c : Word) : (s.accept c).busy = true := rfl
@[simp] theorem State.accept_done (c : Word) : (s.accept c).done = false := rfl
@[simp] theorem State.accept_err (c : Word) : (s.accept c).err = s.err := rfl
@[simp] theorem State.accept_ovr (c : Word) : (s.accept c).ovr = s.ovr := rfl
@[simp] theorem State.accept_errcode (c : Word) : (s.accept c).errcode = s.errcode := rfl
@[simp] theorem State.accept_ie (c : Word) : (s.accept c).ie = s.ie := rfl
@[simp] theorem State.accept_errcmd (c : Word) : (s.accept c).errcmd = s.errcmd := rfl
@[simp] theorem State.accept_modulus (c : Word) : (s.accept c).modulus = s.modulus := rfl
@[simp] theorem State.accept_expbits (c : Word) : (s.accept c).expbits = s.expbits := rfl
@[simp] theorem State.accept_mmcnt (c : Word) : (s.accept c).mmcnt = s.mmcnt := rfl
@[simp] theorem State.accept_pending (c : Word) : (s.accept c).pending = c := rfl
@[simp] theorem State.accept_inReset (c : Word) : (s.accept c).inReset = s.inReset := rfl
@[simp] theorem State.accept_inputs (c : Word) : (s.accept c).inputs = s.inputs := rfl
@[simp] theorem State.accept_response (c : Word) : (s.accept c).response = s.response := rfl
@[simp] theorem State.accept_draws (c : Word) : (s.accept c).draws = s.draws := rfl

@[simp] theorem State.dropWrite_w : (s.dropWrite).w = s.w := rfl
@[simp] theorem State.dropWrite_busy : (s.dropWrite).busy = s.busy := rfl
@[simp] theorem State.dropWrite_done : (s.dropWrite).done = s.done := rfl
@[simp] theorem State.dropWrite_err : (s.dropWrite).err = s.err := rfl
@[simp] theorem State.dropWrite_ovr : (s.dropWrite).ovr = true := rfl
@[simp] theorem State.dropWrite_errcode : (s.dropWrite).errcode = s.errcode := rfl
@[simp] theorem State.dropWrite_ie : (s.dropWrite).ie = s.ie := rfl
@[simp] theorem State.dropWrite_errcmd : (s.dropWrite).errcmd = s.errcmd := rfl
@[simp] theorem State.dropWrite_modulus : (s.dropWrite).modulus = s.modulus := rfl
@[simp] theorem State.dropWrite_expbits : (s.dropWrite).expbits = s.expbits := rfl
@[simp] theorem State.dropWrite_mmcnt : (s.dropWrite).mmcnt = s.mmcnt := rfl
@[simp] theorem State.dropWrite_pending : (s.dropWrite).pending = s.pending := rfl
@[simp] theorem State.dropWrite_inReset : (s.dropWrite).inReset = s.inReset := rfl
@[simp] theorem State.dropWrite_inputs : (s.dropWrite).inputs = s.inputs := rfl
@[simp] theorem State.dropWrite_response : (s.dropWrite).response = s.response := rfl
@[simp] theorem State.dropWrite_draws : (s.dropWrite).draws = s.draws := rfl

@[simp] theorem State.respond_w (r : Response) : (s.respond r).w = s.w := rfl
@[simp] theorem State.respond_busy (r : Response) : (s.respond r).busy = s.busy := rfl
@[simp] theorem State.respond_done (r : Response) : (s.respond r).done = s.done := rfl
@[simp] theorem State.respond_err (r : Response) : (s.respond r).err = s.err := rfl
@[simp] theorem State.respond_ovr (r : Response) : (s.respond r).ovr = s.ovr := rfl
@[simp] theorem State.respond_errcode (r : Response) : (s.respond r).errcode = s.errcode := rfl
@[simp] theorem State.respond_ie (r : Response) : (s.respond r).ie = s.ie := rfl
@[simp] theorem State.respond_errcmd (r : Response) : (s.respond r).errcmd = s.errcmd := rfl
@[simp] theorem State.respond_modulus (r : Response) : (s.respond r).modulus = s.modulus := rfl
@[simp] theorem State.respond_expbits (r : Response) : (s.respond r).expbits = s.expbits := rfl
@[simp] theorem State.respond_mmcnt (r : Response) : (s.respond r).mmcnt = s.mmcnt := rfl
@[simp] theorem State.respond_pending (r : Response) : (s.respond r).pending = s.pending := rfl
@[simp] theorem State.respond_inReset (r : Response) : (s.respond r).inReset = s.inReset := rfl
@[simp] theorem State.respond_inputs (r : Response) : (s.respond r).inputs = s.inputs := rfl
@[simp] theorem State.respond_response (r : Response) : (s.respond r).response = some r := rfl
@[simp] theorem State.respond_draws (r : Response) : (s.respond r).draws = s.draws := rfl

@[simp] theorem State.drawn_w : (s.drawn).w = s.w := rfl
@[simp] theorem State.drawn_busy : (s.drawn).busy = s.busy := rfl
@[simp] theorem State.drawn_done : (s.drawn).done = s.done := rfl
@[simp] theorem State.drawn_err : (s.drawn).err = s.err := rfl
@[simp] theorem State.drawn_ovr : (s.drawn).ovr = s.ovr := rfl
@[simp] theorem State.drawn_errcode : (s.drawn).errcode = s.errcode := rfl
@[simp] theorem State.drawn_ie : (s.drawn).ie = s.ie := rfl
@[simp] theorem State.drawn_errcmd : (s.drawn).errcmd = s.errcmd := rfl
@[simp] theorem State.drawn_modulus : (s.drawn).modulus = s.modulus := rfl
@[simp] theorem State.drawn_expbits : (s.drawn).expbits = s.expbits := rfl
@[simp] theorem State.drawn_mmcnt : (s.drawn).mmcnt = s.mmcnt := rfl
@[simp] theorem State.drawn_pending : (s.drawn).pending = s.pending := rfl
@[simp] theorem State.drawn_inReset : (s.drawn).inReset = s.inReset := rfl
@[simp] theorem State.drawn_inputs : (s.drawn).inputs = s.inputs := rfl
@[simp] theorem State.drawn_response : (s.drawn).response = s.response := rfl
@[simp] theorem State.drawn_draws : (s.drawn).draws = s.draws + 1 := rfl

@[simp] theorem State.withInputs_w (rest : List Input) : (s.withInputs rest).w = s.w := rfl
@[simp] theorem State.withInputs_busy (rest : List Input) : (s.withInputs rest).busy = s.busy := rfl
@[simp] theorem State.withInputs_done (rest : List Input) : (s.withInputs rest).done = s.done := rfl
@[simp] theorem State.withInputs_err (rest : List Input) : (s.withInputs rest).err = s.err := rfl
@[simp] theorem State.withInputs_ovr (rest : List Input) : (s.withInputs rest).ovr = s.ovr := rfl
@[simp] theorem State.withInputs_errcode (rest : List Input) : (s.withInputs rest).errcode = s.errcode := rfl
@[simp] theorem State.withInputs_ie (rest : List Input) : (s.withInputs rest).ie = s.ie := rfl
@[simp] theorem State.withInputs_errcmd (rest : List Input) : (s.withInputs rest).errcmd = s.errcmd := rfl
@[simp] theorem State.withInputs_modulus (rest : List Input) : (s.withInputs rest).modulus = s.modulus := rfl
@[simp] theorem State.withInputs_expbits (rest : List Input) : (s.withInputs rest).expbits = s.expbits := rfl
@[simp] theorem State.withInputs_mmcnt (rest : List Input) : (s.withInputs rest).mmcnt = s.mmcnt := rfl
@[simp] theorem State.withInputs_pending (rest : List Input) : (s.withInputs rest).pending = s.pending := rfl
@[simp] theorem State.withInputs_inReset (rest : List Input) : (s.withInputs rest).inReset = s.inReset := rfl
@[simp] theorem State.withInputs_inputs (rest : List Input) : (s.withInputs rest).inputs = rest := rfl
@[simp] theorem State.withInputs_response (rest : List Input) : (s.withInputs rest).response = s.response := rfl
@[simp] theorem State.withInputs_draws (rest : List Input) : (s.withInputs rest).draws = s.draws := rfl

@[simp] theorem State.releaseReset_w : (s.releaseReset).w = s.w := rfl
@[simp] theorem State.releaseReset_busy : (s.releaseReset).busy = s.busy := rfl
@[simp] theorem State.releaseReset_done : (s.releaseReset).done = s.done := rfl
@[simp] theorem State.releaseReset_err : (s.releaseReset).err = s.err := rfl
@[simp] theorem State.releaseReset_ovr : (s.releaseReset).ovr = s.ovr := rfl
@[simp] theorem State.releaseReset_errcode : (s.releaseReset).errcode = s.errcode := rfl
@[simp] theorem State.releaseReset_ie : (s.releaseReset).ie = s.ie := rfl
@[simp] theorem State.releaseReset_errcmd : (s.releaseReset).errcmd = s.errcmd := rfl
@[simp] theorem State.releaseReset_modulus : (s.releaseReset).modulus = s.modulus := rfl
@[simp] theorem State.releaseReset_expbits : (s.releaseReset).expbits = s.expbits := rfl
@[simp] theorem State.releaseReset_mmcnt : (s.releaseReset).mmcnt = s.mmcnt := rfl
@[simp] theorem State.releaseReset_pending : (s.releaseReset).pending = s.pending := rfl
@[simp] theorem State.releaseReset_inReset : (s.releaseReset).inReset = false := rfl
@[simp] theorem State.releaseReset_inputs : (s.releaseReset).inputs = s.inputs := rfl
@[simp] theorem State.releaseReset_response : (s.releaseReset).response = s.response := rfl
@[simp] theorem State.releaseReset_draws : (s.releaseReset).draws = s.draws := rfl

@[simp] theorem State.assertReset_w : (s.assertReset).w = Vector.replicate 16 Dw.zero := rfl
@[simp] theorem State.assertReset_busy : (s.assertReset).busy = false := rfl
@[simp] theorem State.assertReset_done : (s.assertReset).done = false := rfl
@[simp] theorem State.assertReset_err : (s.assertReset).err = false := rfl
@[simp] theorem State.assertReset_ovr : (s.assertReset).ovr = false := rfl
@[simp] theorem State.assertReset_errcode : (s.assertReset).errcode = 0 := rfl
@[simp] theorem State.assertReset_ie : (s.assertReset).ie = false := rfl
@[simp] theorem State.assertReset_errcmd : (s.assertReset).errcmd = 0 := rfl
@[simp] theorem State.assertReset_modulus : (s.assertReset).modulus = 0 := rfl
@[simp] theorem State.assertReset_expbits : (s.assertReset).expbits = 64 := rfl
@[simp] theorem State.assertReset_mmcnt : (s.assertReset).mmcnt = 0 := rfl
@[simp] theorem State.assertReset_pending : (s.assertReset).pending = 0 := rfl
@[simp] theorem State.assertReset_inReset : (s.assertReset).inReset = true := rfl
@[simp] theorem State.assertReset_inputs : (s.assertReset).inputs = s.inputs := rfl
@[simp] theorem State.assertReset_response : (s.assertReset).response = s.response := rfl
@[simp] theorem State.assertReset_draws : (s.assertReset).draws = s.draws := rfl

end Sys2Proof.Machine
end

