-- ==== Sys2Proof/Laws/Ops.lean ====
section
/-! SUPPORT. What the shared operations do, said once: reads after writes of W registers, exec arm by arm, the decoder's
reserved check, the engine step and the step (one equation per case and one inversion lemma). -/

namespace Sys2Proof.Machine

/-! ### W registers -/

@[simp] theorem State.readW_writeW_same (s : State) (i : Reg) (v : Dw) : (s.writeW i v).readW i = v := by
  simp [State.readW]

theorem State.readW_writeW_other (s : State) {i j : Reg} (v : Dw) (h : j ≠ i) :
    (s.writeW i v).readW j = s.readW j := by
  have : i.val ≠ j.val := fun e => h (Fin.ext e.symm)
  simp [State.readW, this]

@[simp] theorem State.readW_complete_same (s : State) (i : Reg) (v : Dw) : (s.complete i v).readW i = v := by
  simp [State.readW]

theorem State.readW_complete_other (s : State) {i j : Reg} (v : Dw) (h : j ≠ i) :
    (s.complete i v).readW j = s.readW j := by
  have : i.val ≠ j.val := fun e => h (Fin.ext e.symm)
  simp [State.readW, this]

@[simp] theorem State.readW_countProducts (s : State) (n : Nat) (i : Reg) :
    (s.countProducts n).readW i = s.readW i := rfl

@[simp] theorem State.readW_takeFault (s : State) (f : CmdFault) (i : Reg) : (s.takeFault f).readW i = s.readW i := rfl

/-- Two states with the same W registers read alike, register by register. -/
theorem State.readW_congr {s t : State} (h : t.w = s.w) (i : Reg) : t.readW i = s.readW i := by
  simp [State.readW, h]

/-! ### The Reducer's check -/

theorem reduceFn_zero (v : Dw) : reduceFn v Dw.zero = .error .redZero := by simp [reduceFn]

/-- REDUCE_FN cannot fault on a nonzero modulus, which is why MM_FN calls its loops directly (R84). -/
theorem reduceFn_of_ne_zero (v : Dw) {m : Dw} (h : m ≠ Dw.zero) : reduceFn v m = .ok (reduceLoops v m) := by
  simp [reduceFn, h]

/-! ### The decoder's reserved check -/

/-- Everything `checkReserved` can answer. -/
theorem checkReserved_cases (c : Word) (used : BitVec 32) (i : Instr) :
    (checkReserved c used i = .ok i ∧ c.extractLsb' 32 32 = 0 ∧ c.extractLsb' 0 32 &&& ~~~used = 0) ∨
    (checkReserved c used i = .error .reservedField ∧
      (c.extractLsb' 32 32 ≠ 0 ∨ c.extractLsb' 0 32 &&& ~~~used ≠ 0)) := by
  unfold checkReserved
  split
  · exact .inr ⟨rfl, ‹_›⟩
  · rename_i h
    rw [not_or, not_not, not_not] at h
    exact .inl ⟨rfl, h⟩

/-! ### The engine and the step -/

theorem engineStep_idle {s : State} (h : s.busy = false) : engineStep s = .next s := by simp [engineStep, h]

theorem engineStep_runs {s : State} {i : Instr} (hb : s.busy = true) (hd : decode s.pending = .ok i) :
    engineStep s = exec i s := by simp [engineStep, hb, hd]

theorem engineStep_decodeFault {s : State} {f : CmdFault} (hb : s.busy = true) (hd : decode s.pending = .error f) :
    engineStep s = .next (s.takeFault f) := by simp [engineStep, hb, hd]

/-- Everything the engine step can be. -/
theorem engineStep_cases (s : State) :
    (s.busy = false ∧ engineStep s = .next s) ∨
    (s.busy = true ∧ ∃ i, decode s.pending = .ok i ∧ engineStep s = exec i s) ∨
    (s.busy = true ∧ ∃ f, decode s.pending = .error f ∧ engineStep s = .next (s.takeFault f)) := by
  cases hb : s.busy with
  | false => exact .inl ⟨rfl, engineStep_idle hb⟩
  | true =>
    cases hd : decode s.pending with
    | ok i => exact .inr (.inl ⟨rfl, i, rfl, engineStep_runs hb hd⟩)
    | error f => exact .inr (.inr ⟨rfl, f, rfl, engineStep_decodeFault hb hd⟩)

theorem step_nil {s : State} (h : s.inputs = []) : step s = engineStep s := by simp [step, h]

theorem step_engineSlot {s : State} {rest : List Input} (h : s.inputs = .engineSlot :: rest) :
    step s = engineStep (s.withInputs rest) := by simp [step, h]

theorem step_access {s : State} {a : HostAccess} {rest : List Input} (h : s.inputs = .access a :: rest)
    (hr : s.inReset = false) : step s = .next ((s.withInputs rest).serve a) := by simp [step, h, hr]

theorem step_access_inReset {s : State} {a : HostAccess} {rest : List Input} (h : s.inputs = .access a :: rest)
    (hr : s.inReset = true) : step s = .refused .accessDuringReset := by simp [step, h, hr]

theorem step_assertReset {s : State} {rest : List Input} (h : s.inputs = .assertReset :: rest) :
    step s = .next (s.withInputs rest).assertReset := by simp [step, h]

theorem step_releaseReset {s : State} {rest : List Input} (h : s.inputs = .releaseReset :: rest) :
    step s = .next (s.withInputs rest).releaseReset := by simp [step, h]

/-- Everything one step can be. -/
theorem step_cases (s : State) :
    (s.inputs = [] ∧ step s = engineStep s) ∨
    (∃ rest, s.inputs = .engineSlot :: rest ∧ step s = engineStep (s.withInputs rest)) ∨
    (∃ a rest, s.inputs = .access a :: rest ∧ s.inReset = false ∧ step s = .next ((s.withInputs rest).serve a)) ∨
    (∃ a rest, s.inputs = .access a :: rest ∧ s.inReset = true ∧ step s = .refused .accessDuringReset) ∨
    (∃ rest, s.inputs = .assertReset :: rest ∧ step s = .next (s.withInputs rest).assertReset) ∨
    (∃ rest, s.inputs = .releaseReset :: rest ∧ step s = .next (s.withInputs rest).releaseReset) := by
  match h : s.inputs with
  | [] => exact .inl ⟨rfl, step_nil h⟩
  | .engineSlot :: rest => exact .inr (.inl ⟨rest, rfl, step_engineSlot h⟩)
  | .access a :: rest =>
    cases hr : s.inReset with
    | false => exact .inr (.inr (.inl ⟨a, rest, rfl, rfl, step_access h hr⟩))
    | true => exact .inr (.inr (.inr (.inl ⟨a, rest, rfl, rfl, step_access_inReset h hr⟩)))
  | .assertReset :: rest => exact .inr (.inr (.inr (.inr (.inl ⟨rest, rfl, step_assertReset h⟩))))
  | .releaseReset :: rest => exact .inr (.inr (.inr (.inr (.inr ⟨rest, rfl, step_releaseReset h⟩))))

/-- A run of k + 1 steps whose first step goes on is the run of k steps from there. -/
theorem core_run_succ {s t : State} (k : Nat) (h : step s = .next t) : Host.Core.run core (k + 1) s = Host.Core.run core k t := by
  have hc : Host.Core.step core s = .next t := h
  exact (Host.Core.run.eq_2 core s k).trans (by rw [hc])

end Sys2Proof.Machine
end

