-- ==== Sys2Proof/Laws/PerInstr.lean ====
section
/-! SUPPORT. Facts about every command as it is written, one lemma per constructor. -/

namespace Sys2Proof.Laws.EncodingRow

/-- The low byte of a command's word is its row's opcode. -/
def Statement (i : Instr) : Prop := opField (encode i) = i.opcode

/-- The bits that a value shifted up by 8 or more leaves in the low byte: none. -/
theorem lowByte_shifted (v : Word) {n : Nat} (h : 8 ≤ n) : (v <<< n).extractLsb' 0 8 = 0#8 := by
  ext k hk
  have : k < n := by omega
  simp [this]

theorem lowByte_encodeRdRs1 (op : Word) (rd rs1 : Reg) : (encodeRdRs1 op rd rs1).extractLsb' 0 8 = op.extractLsb' 0 8 := by
  simp only [encodeRdRs1, regBits, BitVec.extractLsb'_or, lowByte_shifted _ (show 8 ≤ 12 by decide),
    lowByte_shifted _ (show 8 ≤ 8 by decide), BitVec.or_zero]

theorem lowByte_encodeRdRs1Rs2 (op : Word) (rd rs1 rs2 : Reg) :
    (encodeRdRs1Rs2 op rd rs1 rs2).extractLsb' 0 8 = op.extractLsb' 0 8 := by
  simp only [encodeRdRs1Rs2, regBits, BitVec.extractLsb'_or, lowByte_shifted _ (show 8 ≤ 16 by decide),
    lowByte_encodeRdRs1, BitVec.zero_or]

theorem fromsingle (rd rs1 : Reg) : Statement (.fromsingle rd rs1) := lowByte_encodeRdRs1 _ _ _
theorem add (rd rs1 rs2 : Reg) : Statement (.add rd rs1 rs2) := lowByte_encodeRdRs1Rs2 _ _ _ _
theorem sub (rd rs1 rs2 : Reg) : Statement (.sub rd rs1 rs2) := lowByte_encodeRdRs1Rs2 _ _ _ _
theorem shl (rd rs1 : Reg) : Statement (.shl rd rs1) := lowByte_encodeRdRs1 _ _ _
theorem shr (rd rs1 : Reg) : Statement (.shr rd rs1) := lowByte_encodeRdRs1 _ _ _
theorem getbit (rd rs1 : Reg) (imm8 : Nat) : Statement (.getbit rd rs1 imm8) := by
  simp only [Statement, encode, opField, BitVec.extractLsb'_or, lowByte_shifted _ (show 8 ≤ 20 by decide),
    lowByte_encodeRdRs1, BitVec.zero_or]
  rfl
theorem gt (rd rs1 rs2 : Reg) : Statement (.gt rd rs1 rs2) := lowByte_encodeRdRs1Rs2 _ _ _ _
theorem eq (rd rs1 rs2 : Reg) : Statement (.eq rd rs1 rs2) := lowByte_encodeRdRs1Rs2 _ _ _ _
theorem reduce (rd rs1 rs2 : Reg) : Statement (.reduce rd rs1 rs2) := lowByte_encodeRdRs1Rs2 _ _ _ _
theorem montmul (rd rs1 rs2 : Reg) : Statement (.montmul rd rs1 rs2) := lowByte_encodeRdRs1Rs2 _ _ _ _
theorem modexp (rd rs1 rs2 : Reg) : Statement (.modexp rd rs1 rs2) := lowByte_encodeRdRs1Rs2 _ _ _ _

end Sys2Proof.Laws.EncodingRow
end

