-- ==== Sys2Proof/Laws/Window.lean ====
section
/-! SUPPORT. The register window: where an offset from BASE lands, the register map, and what an access can do to the
state, said once. -/

namespace Sys2Proof.Machine

/-! ### Addresses -/

/-- An 8-byte access at a multiple of 8 inside the window reaches its offset, wherever the window lies (R38, R39). -/
theorem windowOffset_base_add {off : Nat} (h8 : off % 8 = 0) (hlt : off < 0x200) :
    windowOffset (Config.base + off) 8 = some off := by
  have : Config.base + off - Config.base = off := by omega
  simp [windowOffset, this, h8, hlt]

/-- Everything `windowOffset` can answer. -/
theorem windowOffset_cases (addr n : Nat) :
    (∃ off, windowOffset addr n = some off ∧ addr = Config.base + off ∧ n = 8 ∧ off % 8 = 0 ∧ off < 0x200) ∨
    (windowOffset addr n = none ∧
      ¬(Config.base ≤ addr ∧ n = 8 ∧ (addr - Config.base) % 8 = 0 ∧ addr - Config.base < 0x200)) := by
  unfold windowOffset
  split
  · rename_i h
    obtain ⟨hb, hn, h8, hlt⟩ := h
    exact .inl ⟨_, rfl, by omega, hn, h8, hlt⟩
  · exact .inr ⟨rfl, ‹_›⟩

@[simp] theorem length_toLanes (v : Word) : (toLanes v).length = 8 := rfl

/-! ### The register map (R17) -/

theorem winRegAt_wLo (i : Reg) : winRegAt (0x100 + 16 * i.val) = .wLo i := by
  revert i; decide

theorem winRegAt_wHi (i : Reg) : winRegAt (0x108 + 16 * i.val) = .wHi i := by
  revert i; decide

/-- Offsets 0x048 to 0x0F8 are reserved (R43). -/
theorem winRegAt_reserved : ∀ k : Fin 23, winRegAt (0x048 + 8 * k.val) = .reserved := by decide

/-! ### What an access can do -/

/-- A register's value does not depend on the inputs still to come. -/
@[simp] theorem State.regValue_withInputs (s : State) (rest : List Input) (r : WinReg) :
    (s.withInputs rest).regValue r = s.regValue r := by
  cases r <;> rfl

/-- An RD of R63 reads the register at its offset. -/
theorem State.serve_read_window (s : State) {off : Nat} (h8 : off % 8 = 0) (hlt : off < 0x200) :
    s.serve (.read (Config.base + off) 8) = s.hostRead (winRegAt off) := by
  simp [State.serve, windowOffset_base_add h8 hlt]

/-- An 8-byte write of R63 writes the register at its offset. -/
theorem State.serve_write_window (s : State) {off : Nat} {data : List Byte} (hn : data.length = 8) (h8 : off % 8 = 0)
    (hlt : off < 0x200) :
    s.serve (.write (Config.base + off) data) = (s.hostWrite (winRegAt off) (fromLanes data)).respond .written := by
  simp [State.serve, hn, windowOffset_base_add h8 hlt]

/-- Everything a host access can do: a bus error, or a read or write of one register of the window (R39). -/
theorem State.serve_cases (s : State) (a : HostAccess) :
    s.serve a = s.respond (.busError Config.hostBusError) ∨
    (∃ off, off % 8 = 0 ∧ off < 0x200 ∧ a = .read (Config.base + off) 8 ∧ s.serve a = s.hostRead (winRegAt off)) ∨
    (∃ off data, off % 8 = 0 ∧ off < 0x200 ∧ a = .write (Config.base + off) data ∧ data.length = 8 ∧
      s.serve a = (s.hostWrite (winRegAt off) (fromLanes data)).respond .written) := by
  cases a with
  | read addr n =>
    rcases windowOffset_cases addr n with ⟨off, -, rfl, rfl, h8, hlt⟩ | ⟨hw, -⟩
    · exact .inr (.inl ⟨off, h8, hlt, rfl, s.serve_read_window h8 hlt⟩)
    · exact .inl (by simp [State.serve, hw])
  | write addr data =>
    rcases windowOffset_cases addr data.length with ⟨off, -, rfl, hn, h8, hlt⟩ | ⟨hw, -⟩
    · exact .inr (.inr ⟨off, data, h8, hlt, rfl, hn, s.serve_write_window hn h8 hlt⟩)
    · exact .inl (by simp [State.serve, hw])

/-- A host read touches nothing but the model's own answer and draw counter (R44). -/
theorem State.hostRead_frame (s : State) (r : WinReg) :
    s.hostRead r = { s with response := (s.hostRead r).response, draws := (s.hostRead r).draws } := by
  unfold State.hostRead
  split <;> rfl

/-- Everything a host write of CMD can do (R26). -/
theorem State.writeCmd_cases (s : State) (c : Word) :
    (s.busy = false ∧ s.err = false ∧ s.writeCmd c = s.accept c) ∨
    ((s.busy = true ∨ s.err = true) ∧ s.writeCmd c = s.dropWrite) := by
  unfold State.writeCmd
  split
  · exact .inl ⟨‹_ ∧ _›.1, ‹_ ∧ _›.2, rfl⟩
  · rename_i h
    refine .inr ⟨?_, rfl⟩
    revert h
    cases s.busy <;> cases s.err <;> simp

/-- Everything a host write of EXPBITS can do (R30). -/
theorem State.writeExpbits_cases (s : State) (v : Word) :
    (1 ≤ v.toNat ∧ v.toNat ≤ 64 ∧ s.writeExpbits v = { s with expbits := v.setWidth 7 }) ∨
    ((v.toNat = 0 ∨ 64 < v.toNat) ∧ s.writeExpbits v = s) := by
  unfold State.writeExpbits
  split
  · exact .inl ⟨‹_ ∧ _›.1, ‹_ ∧ _›.2, rfl⟩
  · exact .inr ⟨by omega, rfl⟩

/-- A host write never touches ERRCMD, the reset input, the inputs, the answer or the draws. -/
theorem State.hostWrite_frame (s : State) (r : WinReg) (v : Word) :
    (s.hostWrite r v).errcmd = s.errcmd ∧ (s.hostWrite r v).inReset = s.inReset ∧
    (s.hostWrite r v).inputs = s.inputs ∧ (s.hostWrite r v).response = s.response ∧
    (s.hostWrite r v).draws = s.draws := by
  unfold State.hostWrite
  split
  · exact ⟨rfl, rfl, rfl, rfl, rfl⟩
  · cases r with
    | cmd => rcases s.writeCmd_cases v with ⟨-, -, h⟩ | ⟨-, h⟩ <;> simp [State.writeReg, h]
    | expbits => rcases s.writeExpbits_cases v with ⟨-, -, h⟩ | ⟨-, h⟩ <;> simp [State.writeReg, h]
    | _ => exact ⟨rfl, rfl, rfl, rfl, rfl⟩

end Sys2Proof.Machine
end

