-- ==== Sys2Proof/Tests/Slice0.lean ====
section
/-! SUPPORT. Tests. Expected values come from the worked words, vectors and examples of the spec (95_test_vectors unless said
otherwise); the witness theorems show for each claim a state and operands that meet its hypotheses. -/

namespace Sys2Proof.Tests
open Sys2Proof.Machine

/-! ### Well-formedness: what the check refuses (R56: the immediate is 0 to 255) -/

theorem test_wf_refuses_index_256 : (Instr.getbit 0 0 256).wf = false := by decide
theorem test_wf_accepts_index_255 : (Instr.getbit 0 0 255).wf = true := by decide

/-! ### Decoding: words written out bit by bit from the encoding patterns of the opcode table -/

theorem test_decode_fromsingle : decode 0b0000000000000000_0001_0010_00000001 = .ok (.fromsingle 2 1) := by decide
theorem test_decode_add : decode 0b000000000000_0010_0001_0011_00000010 = .ok (.add 3 1 2) := by decide
theorem test_decode_sub : decode 0b000000000000_0010_0011_0100_00000011 = .ok (.sub 4 3 2) := by decide
theorem test_decode_shl : decode 0b0000000000000000_0001_0010_00000100 = .ok (.shl 2 1) := by decide
theorem test_decode_shr : decode 0b0000000000000000_0001_0010_00000101 = .ok (.shr 2 1) := by decide
theorem test_decode_getbit : decode 0b0000_01000000_0000_0001_0010_00000110 = .ok (.getbit 2 1 64) := by decide
theorem test_decode_gt : decode 0b000000000000_0001_0011_0100_00000111 = .ok (.gt 4 3 1) := by decide
theorem test_decode_eq : decode 0b000000000000_0001_0110_0111_00001000 = .ok (.eq 7 6 1) := by decide
theorem test_decode_reduce : decode 0b000000000000_0001_0010_0100_00010000 = .ok (.reduce 4 2 1) := by decide
theorem test_decode_montmul : decode 0b000000000000_0001_0001_0010_00100000 = .ok (.montmul 2 1 1) := by decide
theorem test_decode_modexp : decode 0b000000000000_0100_0011_0101_00110000 = .ok (.modexp 5 3 4) := by decide

/-- Section 2.11: the undefined opcode wins over reserved bits; reserved bits and unused fields are refused. -/
theorem test_decode_faults :
    decode 0x00000000 = .error .illegalOpcode ∧ decode 0x10000009 = .error .illegalOpcode ∧
    decode 0x10021302 = .error .reservedField ∧ decode 0x00121302 = .error .reservedField ∧
    decode 0x00011301 = .error .reservedField ∧ decode 0x00010006 = .error .reservedField ∧
    decode 0x0000000100000002 = .error .reservedField := by decide

theorem test_decodeTableWord : decodeTableWord 32 0x00021330 = some (.modexp 3 1 2) := by decide

/-! ### One command from a state with W1, W2, MOD and EXPBITS set (section 2: the result is W3) -/

/-- The reset state with operands, its next step the command `word`. -/
def ready (modulus : Word) (k : BitVec 7) (w1 w2 : Dw) (word : Nat) : State :=
  { (((State.reset.writeW 1 w1).writeW 2 w2).withFetchWord 32 word) with modulus := modulus, expbits := k }

/-- W3, MMCNT, STATUS and ERRCMD after the command. -/
def after (s : State) : Option (Dw × Word × Word × Word) :=
  match step s with
  | .next t => some (t.readW 3, t.mmcnt, t.statusWord, t.errcmd)
  | .fault _ => none
  | .refused _ => none

theorem test_fromsingle : after (ready 0 64 ⟨0xDEAD, 0x1234⟩ Dw.zero 0x00001301) = some (⟨0, 0x1234⟩, 0, 2, 0) := by decide
theorem test_add_carry : after (ready 0 64 ⟨0, 0x8000000000000000⟩ ⟨0, 0x8000000000000000⟩ 0x00021302) =
    some (⟨1, 0⟩, 0, 2, 0) := by decide
theorem test_add_wrap : after (ready 0 64 ⟨-1, -1⟩ ⟨-1, -1⟩ 0x00021302) =
    some (⟨-1, 0xFFFFFFFFFFFFFFFE⟩, 0, 2, 0) := by decide
theorem test_sub_borrow : after (ready 0 64 ⟨5, 3⟩ ⟨2, 7⟩ 0x00021303) =
    some (⟨2, 0xFFFFFFFFFFFFFFFC⟩, 0, 2, 0) := by decide
theorem test_sub_wrap : after (ready 0 64 ⟨0, 0⟩ ⟨0, 1⟩ 0x00021303) = some (⟨-1, -1⟩, 0, 2, 0) := by decide
theorem test_shl : after (ready 0 64 ⟨-1, -1⟩ Dw.zero 0x00001304) =
    some (⟨-1, 0xFFFFFFFFFFFFFFFE⟩, 0, 2, 0) := by decide
theorem test_shr : after (ready 0 64 ⟨-1, -1⟩ Dw.zero 0x00001305) = some (⟨0x7FFFFFFFFFFFFFFF, -1⟩, 0, 2, 0) := by decide
theorem test_getbit_63 : after (ready 0 64 ⟨1, 0x8000000000000000⟩ Dw.zero 0x03F01306) =
    some (⟨0, 1⟩, 0, 2, 0) := by decide
theorem test_getbit_128 : after (ready 0 64 ⟨-1, -1⟩ Dw.zero 0x08001306) = some (⟨0, 0⟩, 0, 2, 0) := by decide
theorem test_gt_hi : after (ready 0 64 ⟨1, 0⟩ ⟨0, -1⟩ 0x00021307) = some (⟨0, 1⟩, 0, 2, 0) := by decide
theorem test_gt_equal : after (ready 0 64 ⟨5, 7⟩ ⟨5, 7⟩ 0x00021307) = some (⟨0, 0⟩, 0, 2, 0) := by decide
theorem test_eq_hi_differs : after (ready 0 64 ⟨5, 7⟩ ⟨6, 7⟩ 0x00021308) = some (⟨0, 0⟩, 0, 2, 0) := by decide
theorem test_reduce_bounded : after (ready 0 64 ⟨-1, -1⟩ ⟨0x8000000000000000, 1⟩ 0x00021310) =
    some (⟨0x7FFFFFFFFFFFFFFF, 0xFFFFFFFFFFFFFFFE⟩, 0, 2, 0) := by decide +kernel
theorem test_reduce_zero : after (ready 0 64 ⟨0, 100⟩ Dw.zero 0x00021310) =
    some (⟨0, 0⟩, 0, 0x404, 0x00021310) := by decide
theorem test_montmul : after (ready 3013742077 64 ⟨7, 179⟩ ⟨9, 145⟩ 0x00021320) =
    some (⟨0, 25955⟩, 1, 2, 0) := by decide +kernel
theorem test_montmul_even : after (ready 10 64 ⟨0, 3⟩ ⟨0, 7⟩ 0x00021320) = some (⟨0, 8⟩, 1, 2, 0) := by decide +kernel
theorem test_modexp_low_bits : after (ready 3013742077 4 ⟨0, 7⟩ ⟨0, 0x13⟩ 0x00021330) =
    some (⟨0, 343⟩, 8, 2, 0) := by decide +kernel
theorem test_modexp_zero_modulus : after (ready 0 64 ⟨0, 7⟩ ⟨0, 0x13⟩ 0x00021330) =
    some (⟨0, 0⟩, 0, 0x304, 0x00021330) := by decide

/-- The decode faults taken by the engine step (section 2.11: STATUS = 0x0n04). -/
theorem test_fault_entry :
    after (ready 0 64 Dw.zero Dw.zero 0x10000009) = some (⟨0, 0⟩, 0, 0x104, 0x10000009) ∧
    after (ready 0 64 Dw.zero Dw.zero 0x10021320) = some (⟨0, 0⟩, 0, 0x204, 0x10021320) := by decide

/-! ### The window (sections 2.11, 2.12) -/

theorem test_mlen : bitlen 3013742077 = 32 ∧ bitlen 0x8000000000000000 = 64 ∧ bitlen 1 = 1 ∧ bitlen 0 = 0 := by decide

theorem test_expbits_filter : (State.reset.hostWrite .expbits 0).expbits = 64 ∧
    (State.reset.hostWrite .expbits 65).expbits = 64 ∧ (State.reset.hostWrite .expbits 1).expbits = 1 := by decide

theorem test_status_clears_at_once :
    ({ State.reset with err := true, errcode := 3, ovr := true }).statusWord = 0x30C ∧
    (({ State.reset with err := true, errcode := 3, ovr := true }).hostWrite .status 0xF).statusWord = 0 := by decide

/-- Program P5: a W write and a CMD write while BUSY = 1 are dropped and set OVR (STATUS reads 0x9). -/
theorem test_busy_write_dropped :
    (((State.reset.accept 0x00001204).hostWrite (.wLo 1) 9).hostWrite .cmd 0x00001205).statusWord = 9 ∧
    (((State.reset.accept 0x00001204).hostWrite (.wLo 1) 9).readW 1) = ⟨0, 0⟩ := by decide

/-- A CMD write while ERR = 1 is dropped and sets OVR (P3: STATUS goes from 0x304 to 0x30C). -/
theorem test_cmd_in_error :
    (({ State.reset with err := true, errcode := 3 }).hostWrite .cmd 0x00021402).statusWord = 0x30C := by decide

theorem test_id : State.reset.regValue (winRegAt 0x000) = 0x000000074457414C := by decide

/-- The ASCII bytes "DWAL", little-endian, lie in ID[31:0] (R2, R41). -/
theorem test_lanes : (toLanes idWord).take 4 = [0x4C, 0x41, 0x57, 0x44] := by decide

/-! ### Witnesses: for each claim with hypotheses, values that meet them -/

/-- The reset state in which the host does `a` next. -/
def hostState (busy : Bool) (a : HostAccess) : State := { State.reset with busy := busy, inputs := [.access a] }

theorem hostState_does (busy : Bool) (a : HostAccess) : (hostState busy a).HostDoes a [] := ⟨rfl, rfl⟩

theorem witness_DecodeOfEncode : (Instr.getbit 15 15 255).wf = true := by decide
theorem witness_EncodeOfDecode : decode 0x0FF0FF06 = .ok (.getbit 15 15 255) := by decide

theorem witness_UndefinedOpcodeFaults :
    (State.reset.accept 0xFFFFFFFFFFFFFF09).busy = true ∧
    (State.reset.accept 0xFFFFFFFFFFFFFF09).pending.toNat % 256 ∉
      [0x01, 0x02, 0x03, 0x04, 0x05, 0x06, 0x07, 0x08, 0x10, 0x20, 0x30] := by decide

/-- One word for each of the four kinds of reserved bit. -/
theorem witness_ReservedBitsFault :
    (0x100000002 % 256 = 0x02 ∧ 0x100000002 / 2 ^ 32 ≠ 0) ∧ (0x10000006 % 256 = 0x06 ∧ 0x10000006 / 2 ^ 28 % 16 ≠ 0) ∧
    (0x00100008 % 256 = 0x08 ∧ 0x00100008 / 2 ^ 20 % 256 ≠ 0) ∧ (0x00080006 % 256 = 0x06 ∧ 0x00080006 / 2 ^ 16 % 16 ≠ 0) ∧
    (State.reset.accept 0x00080006).busy = true := by decide

theorem witness_GetbitResult : 255 ≤ 255 ∧ 128 ≤ 128 := by decide
theorem witness_AluLaws : (⟨0x7FFFFFFFFFFFFFFF, -1⟩ : Dw).hi.getLsbD 63 = false ∧
    dwGt ⟨1, 0⟩ ⟨0, -1⟩ = true ∧ dwGt ⟨0, -1⟩ ⟨0, 0⟩ = true := by decide
theorem witness_ReducerIsRemainder : (⟨0x8000000000000000, 1⟩ : Dw).val ≠ 0 := by decide
theorem witness_ReducerStages : (⟨0, 1⟩ : Dw).val ≠ 0 := by decide
theorem witness_ReduceResult : ((State.reset.writeW 2 ⟨1, 0⟩).readW 2).val ≠ 0 ∧ (State.reset.readW 2).val = 0 := by decide
theorem witness_MontgomeryBounds : (-1 : Word) ≠ 0 ∧ 63 < bitlen (-1) := by decide
theorem witness_MontgomeryExact : (10 : Word) ≠ 0 := by decide
theorem witness_MontgomeryProductOddModulus : (13 : Word).toNat % 2 = 1 ∧ (12 : Word).toNat < 2 ^ bitlen 13 := by decide
theorem witness_MontmulResult : ({ State.reset with modulus := 13 }).modulus ≠ 0 ∧ State.reset.modulus = 0 := by decide
theorem witness_ModexpResult : ({ State.reset with modulus := 1 }).modulus ≠ 0 ∧ State.reset.modulus = 0 := by decide

/-- A key pair: E = 7, D = 3 for N = 33 (x^21 = x modulo 33 for every residue x). -/
theorem witness_ModexpIsPower :
    (33 : Word).toNat % 2 = 1 ∧ 3 ≤ (33 : Word).toNat ∧ (63 : Word).toNat < 2 ^ bitlen 33 ∧ 1 ≤ 64 ∧ 64 ≤ 64 ∧
    (32 : Word).toNat < (33 : Word).toNat ∧
    ∀ x, x < (33 : Word).toNat → x ^ ((7 : Word).toNat * (3 : Word).toNat) % (33 : Word).toNat = x := by decide +kernel

/-- At the boundary msg = 2^m, with an empty and a nonempty exponent. -/
theorem witness_ModexpOutOfRangeMessage :
    (13 : Word).toNat % 2 = 1 ∧ 2 ^ bitlen 13 ≤ (16 : Word).toNat ∧ 1 ≤ 4 ∧ 4 ≤ 64 ∧
    (0x10 : Word).toNat % 2 ^ 4 = 0 ∧ (0x13 : Word).toNat % 2 ^ 4 ≠ 0 := by decide

theorem witness_ModexpEmptyExponent : (1 : Word) ≠ 0 ∧ (1 : Word).toNat = 1 ∧ (2 : Word) ≠ 0 ∧ 2 ≤ (2 : Word).toNat ∧
    (0x10 : Word).toNat % 2 ^ 4 = 0 ∧ 4 ≤ 64 := by decide

/-- Two states that differ only in bits neither command reads. -/
theorem witness_UnreadOperandBits :
    let s : State := { ((State.reset.writeW 1 ⟨0, 3⟩).writeW 2 ⟨0, 5⟩) with modulus := 13, expbits := 4 }
    let s' : State := { ((State.reset.writeW 1 ⟨9, 3⟩).writeW 2 ⟨9, 5⟩) with modulus := 13, expbits := 4 }
    let u : State := { ((State.reset.writeW 1 ⟨0, 19⟩).writeW 2 ⟨0, 5⟩) with modulus := 13, expbits := 4 }
    let u' : State := { ((State.reset.writeW 1 ⟨0, 3⟩).writeW 2 ⟨0, 21⟩) with modulus := 13, expbits := 4 }
    s.modulus ≠ 0 ∧ u.modulus = s.modulus ∧ u'.modulus = s.modulus ∧ u'.expbits = s.expbits ∧
    s'.modulus = s.modulus ∧ (s.readW 1).lo = (s'.readW 1).lo ∧ (s.readW 2).lo = (s'.readW 2).lo ∧
    (s.readW 1).lo.toNat % 2 ^ bitlen s.modulus = (u.readW 1).lo.toNat % 2 ^ bitlen s.modulus ∧
    (s.readW 2).lo = (u.readW 2).lo ∧ (s.readW 1).lo = (u'.readW 1).lo ∧
    (s.readW 2).lo.toNat % 2 ^ s.expbits.toNat = (u'.readW 2).lo.toNat % 2 ^ s.expbits.toNat := by decide

/-- A busy state for each of the two forms of the engine's turn. -/
theorem witness_StepRunsDecodedCommand :
    (State.reset.accept 0x00021302).busy = true ∧ decode (State.reset.accept 0x00021302).pending = .ok (.add 3 1 2) ∧
    (State.reset.accept 0x00021302).inputs = [] ∧
    (State.reset.withFetchWord 32 0x00021302).busy = true ∧
    decode (State.reset.withFetchWord 32 0x00021302).pending = .ok (.add 3 1 2) ∧
    (State.reset.withFetchWord 32 0x00021302).inputs = [.engineSlot] := by decide

/-- The same with words that do not decode. -/
theorem witness_StepRunsDecodedCommand_decodeFault :
    (State.reset.accept 0x00000009).busy = true ∧
    decode (State.reset.accept 0x00000009).pending = .error .illegalOpcode ∧ (State.reset.accept 0x00000009).inputs = [] ∧
    (State.reset.withFetchWord 32 0x10021302).busy = true ∧
    decode (State.reset.withFetchWord 32 0x10021302).pending = .error .reservedField ∧
    (State.reset.withFetchWord 32 0x10021302).inputs = [.engineSlot] := by decide

/-- An idle engine that has its turn. -/
theorem witness_StepRunsDecodedCommand_idle :
    State.reset.busy = false ∧ State.reset.inputs = [] ∧
    ({ State.reset with inputs := [.engineSlot] }).busy = false ∧
    ({ State.reset with inputs := [.engineSlot] }).inputs = [.engineSlot] := ⟨rfl, rfl, rfl, rfl⟩

theorem witness_CommandCompletesOrFaults : (State.reset.accept 0x00021302).busy = true := rfl

theorem witness_CommandAcceptance :
    ((hostState false (writeAt 0x018 0x00021302)).HostDoes (writeAt 0x018 0x00021302) [] ∧
      (hostState false (writeAt 0x018 0x00021302)).busy = false ∧
      (hostState false (writeAt 0x018 0x00021302)).err = false) ∧
    ((hostState true (writeAt 0x018 0x00021302)).HostDoes (writeAt 0x018 0x00021302) [] ∧
      (hostState true (writeAt 0x018 0x00021302)).busy = true) ∧
    (hostState false (readAt 0x018)).HostDoes (readAt 0x018) [] :=
  ⟨⟨hostState_does _ _, rfl, rfl⟩, ⟨hostState_does _ _, rfl⟩, hostState_does _ _⟩

/-- Every clause's offsets at the ends of their ranges. -/
theorem witness_BusyWritesAreDropped :
    (∀ off ∈ [0x018, 0x028, 0x038, 0x040, 0x100, 0x1F8, 0x010, 0x008],
      (hostState true (writeAt off 1)).HostDoes (writeAt off 1) [] ∧ (hostState true (writeAt off 1)).busy = true) ∧
    (∀ off ∈ [0x100, 0x1F8], 0x100 ≤ off ∧ off < 0x200 ∧ off % 8 = 0) :=
  ⟨fun _ _ => ⟨hostState_does _ _, rfl⟩, by decide⟩

theorem witness_BusyReadsAreDraws :
    (∀ off ∈ [0x040, 0x100, 0x1F8, 0x000, 0x008, 0x010, 0x018, 0x020, 0x028, 0x030, 0x038, 0x048, 0x0F8],
      (hostState true (readAt off)).HostDoes (readAt off) [] ∧ (hostState true (readAt off)).busy = true) ∧
    (∀ off ∈ [0x100, 0x1F8], 0x100 ≤ off ∧ off < 0x200 ∧ off % 8 = 0) ∧
    (∀ off ∈ [0x048, 0x0F8], 0x048 ≤ off ∧ off < 0x100 ∧ off % 8 = 0) :=
  ⟨fun _ _ => ⟨hostState_does _ _, rfl⟩, by decide, by decide⟩

theorem witness_IdleReadsReturnRegisters :
    (∀ off ∈ [0x000, 0x008, 0x010, 0x018, 0x020, 0x028, 0x030, 0x038, 0x040, 0x048, 0x0F8, 0x100, 0x1F8],
      (hostState false (readAt off)).HostDoes (readAt off) [] ∧ (hostState false (readAt off)).busy = false) ∧
    0x100 = 0x100 + 16 * (0 : Reg).val ∧ 0x1F8 = 0x108 + 16 * (15 : Reg).val :=
  ⟨fun _ _ => ⟨hostState_does _ _, rfl⟩, by decide, by decide⟩

theorem witness_ReadsHaveNoSideEffect : (hostState true (.read 5 4)).HostDoes (.read 5 4) [] := hostState_does _ _

/-- A narrow read, an access below the window's end unaligned, and one past the window. -/
theorem witness_BadAccessIsBusError :
    ((hostState false (.read Config.base 4)).HostDoes (.read Config.base 4) [] ∧ 4 ≠ 8) ∧
    ((hostState false (.read (Config.base + 0x00C) 8)).HostDoes (.read (Config.base + 0x00C) 8) [] ∧
      (Config.base + 0x00C - Config.base) % 8 ≠ 0) ∧
    ((hostState false (writeAt 0x200 0)).HostDoes (writeAt 0x200 0) [] ∧
      ∃ data : List Byte, data.length = 8 ∧ writeAt 0x200 0 = .write (Config.base + 0x200) data) :=
  ⟨⟨hostState_does _ _, by decide⟩, ⟨hostState_does _ _, by omega⟩, ⟨hostState_does _ _, _, length_toLanes 0, rfl⟩⟩

theorem witness_StatusWriteClears : (hostState true (writeAt 0x008 0xF)).HostDoes (writeAt 0x008 0xF) [] := hostState_does _ _

theorem witness_PlainRegisterWrites :
    (hostState true (writeAt 0x010 1)).HostDoes (writeAt 0x010 1) [] ∧
    ((hostState false (writeAt 0x028 10)).HostDoes (writeAt 0x028 10) [] ∧ (hostState false (writeAt 0x028 10)).busy = false) ∧
    ((hostState false (writeAt 0x040 10)).HostDoes (writeAt 0x040 10) [] ∧ (hostState false (writeAt 0x040 10)).busy = false) :=
  ⟨hostState_does _ _, ⟨hostState_does _ _, rfl⟩, ⟨hostState_does _ _, rfl⟩⟩

theorem witness_ExpbitsKeepsLegalValue :
    (∀ v ∈ [0, 1, 64, 65], (hostState false (writeAt 0x038 v)).HostDoes (writeAt 0x038 v) [] ∧
      (hostState false (writeAt 0x038 v)).busy = false) ∧
    (hostState true (readAt 0x038)).HostDoes (readAt 0x038) [] :=
  ⟨fun _ _ => ⟨hostState_does _ _, rfl⟩, hostState_does _ _⟩

theorem witness_HalfWriteLeavesOtherHalf :
    ∀ i ∈ [(0 : Reg), 15],
      ((hostState false (writeAt (0x100 + 16 * i.val) 5)).busy = false ∧
        (hostState false (writeAt (0x100 + 16 * i.val) 5)).HostDoes (writeAt (0x100 + 16 * i.val) 5) []) ∧
      ((hostState false (writeAt (0x108 + 16 * i.val) 5)).busy = false ∧
        (hostState false (writeAt (0x108 + 16 * i.val) 5)).HostDoes (writeAt (0x108 + 16 * i.val) 5) []) :=
  fun _ _ => ⟨⟨rfl, hostState_does _ _⟩, ⟨rfl, hostState_does _ _⟩⟩

theorem witness_ReadOnlyWritesIgnored :
    (∀ off ∈ [0x000, 0x020, 0x030, 0x048, 0x0F8], (hostState true (writeAt off 1)).HostDoes (writeAt off 1) []) ∧
    (∀ off ∈ [0x048, 0x0F8], 0x048 ≤ off ∧ off < 0x100 ∧ off % 8 = 0) :=
  ⟨fun _ _ => hostState_does _ _, by decide⟩

theorem witness_LittleEndianLanes : 0 < 8 ∧ 7 < 8 := by decide
theorem witness_MlenIsBitLength : ({ State.reset with modulus := 1 }).modulus ≠ 0 := by decide

theorem witness_OperandSnapshot : (hostState true (writeAt 0x100 9)).HostDoes (writeAt 0x100 9) [] ∧
    (hostState true (writeAt 0x100 9)).busy = true := ⟨hostState_does _ _, rfl⟩

/-- A state in error in which the host clears the error and writes a command. -/
def faultedState : State := { State.reset with
  err := true, errcode := 3, errcmd := 0x00021320, inputs := [.access (writeAt 0x008 0xC), .access (writeAt 0x018 0x00021320)] }

theorem witness_ReturnFromFault : faultedState.inReset = false ∧ faultedState.busy = false ∧
    (0xC : Word).getLsbD 2 = true ∧
    faultedState.inputs = .access (writeAt 0x008 0xC) :: .access (writeAt 0x018 0x00021320) :: [] :=
  ⟨rfl, rfl, by decide, rfl⟩

/-- A step that clears ERR: the window is reached wherever it lies. -/
theorem witness_StickyUntilCleared : faultedState.err = true ∧
    ∃ t, step faultedState = .next t ∧ t.err = false := by
  refine ⟨rfl, _, step_access rfl rfl, ?_⟩
  simp only [State.serve, writeAt, length_toLanes, windowOffset_base_add (show 0x008 % 8 = 0 by decide)
    (show 0x008 < 0x200 by decide)]
  decide

/-- A step that clears OVR: the assertion of reset. -/
theorem witness_StickyUntilCleared_ovr :
    ({ State.reset with ovr := true, inputs := [.assertReset] }).ovr = true ∧
    ∃ t, step { State.reset with ovr := true, inputs := [.assertReset] } = .next t ∧ t.ovr = false :=
  ⟨rfl, _, rfl, rfl⟩

theorem witness_InterruptLevel : (State.reset.complete 3 Dw.zero).done = true := rfl

theorem witness_ResetAbandonsEverything :
    ({ (State.reset.accept 2) with inputs := [.assertReset] }).inputs = .assertReset :: [] ∧
    ({ State.reset with inReset := true, inputs := [.releaseReset] }).inputs = .releaseReset :: [] := ⟨rfl, rfl⟩

/-- A state of the invariant whose next step runs a command. -/
theorem witness_StepKeepsInvariant :
    (State.reset.accept 0x00021302).Inv ∧
    step (State.reset.accept 0x00021302) = .next ((State.reset.accept 0x00021302).complete 3 Dw.zero) := by
  refine ⟨⟨by decide, by decide, by decide, by decide, by decide, ?_⟩, by rfl⟩
  intro h; cases h

theorem witness_OnlyAccessInResetStops :
    (({ State.reset with inReset := true, inputs := [.access (readAt 0)] }).inReset = true ∧
      ({ State.reset with inReset := true, inputs := [.access (readAt 0)] }).inputs = .access (readAt 0) :: []) ∧
    ({ State.reset with inReset := true, inputs := [.releaseReset, .access (readAt 0), .assertReset] }).HostKeepsOff :=
  ⟨⟨rfl, rfl⟩, rfl⟩

theorem witness_EveryCommandEnds : ({ State.reset with
    inputs := [.access (writeAt 0x018 2), .assertReset, .releaseReset, .access (writeAt 0x018 2)] }).HostKeepsOff := rfl

end Sys2Proof.Tests
end

section
/-! The bit length (R5, R10, R29). Everything known of `bitlen` follows from its order characterisation
`bitlen_le_iff`: a value has at most `k` binary digits exactly when it is below `2 ^ k`. -/

namespace Sys2Proof.Machine

theorem bitlen_le_iff (v : Word) (k : Nat) : bitlen v ≤ k ↔ v.toNat < 2 ^ k := by
  unfold bitlen
  split
  case isTrue hzero => simp [hzero]
  case isFalse hne =>
    have hnat : v.toNat ≠ 0 := BitVec.toNat_ne_iff_ne.mpr hne
    rw [Nat.succ_le_iff, Nat.log2_lt hnat]

theorem lt_bitlen_iff (v : Word) (k : Nat) : k < bitlen v ↔ 2 ^ k ≤ v.toNat := by
  rw [← not_le, bitlen_le_iff, not_lt]

theorem toNat_lt_two_pow_bitlen (v : Word) : v.toNat < 2 ^ bitlen v := (bitlen_le_iff v _).mp le_rfl

theorem bitlen_le_64 (v : Word) : bitlen v ≤ 64 := (bitlen_le_iff v 64).mpr v.isLt

theorem bitlen_pos {v : Word} (hv : v ≠ 0) : 0 < bitlen v :=
  (lt_bitlen_iff v 0).mpr (Nat.pos_of_ne_zero (BitVec.toNat_ne_iff_ne.mpr hv))

/-- The top digit of a nonzero value stands at place `bitlen v - 1`. -/
theorem two_pow_pred_bitlen_le_toNat {v : Word} (hv : v ≠ 0) : 2 ^ (bitlen v - 1) ≤ v.toNat :=
  (lt_bitlen_iff v _).mp (Nat.sub_one_lt_of_lt (bitlen_pos hv))

/-- R5's formula: both sides have the same upper bounds. -/
theorem bitlen_eq_clog (v : Word) : bitlen v = Nat.clog 2 (v.toNat + 1) :=
  eq_of_forall_ge_iff fun k => by
    rw [bitlen_le_iff, Nat.clog_le_iff_le_pow one_lt_two, Nat.succ_le_iff]

/-- Settles O45: MLEN is `bitlen` of MOD, so each clause is that fact about `bitlen`. -/
theorem mlenIsBitLength : Obligations.MlenIsBitLength := fun s =>
  ⟨bitlen_eq_clog s.modulus, bitlen_le_64 s.modulus, toNat_lt_two_pow_bitlen s.modulus,
    two_pow_pred_bitlen_le_toNat⟩

end Sys2Proof.Machine
end

section
/-! One host access as one step (R39, R48): an RD or WR of R63 at an offset of the window is a read or write of the
register that the map of R17 puts there. The rules of CMD, CTRL, MOD, MMCNT, EXPBITS and STATUS are then read off
`writeReg`; that OVR and ERR are sticky follows from what each kind of step can do to them. -/

namespace Sys2Proof.Machine

/-! ### The byte lanes (R41) -/

theorem toNat_laneByte (v : Word) (k : Nat) : (laneByte v k).toNat = v.toNat / 2 ^ (8 * k) % 256 := by
  simp [laneByte, Nat.shiftRight_eq_div_pow]

/-- The eight lanes are the base-256 digits of the value. -/
theorem lanesVal_toLanes (v : Word) : lanesVal (toLanes v) = v.toNat := by
  simp only [toLanes, lanesVal, toNat_laneByte]
  omega

@[simp] theorem fromLanes_toLanes (v : Word) : fromLanes (toLanes v) = v := by
  rw [fromLanes, lanesVal_toLanes, BitVec.ofNat_toNat, BitVec.setWidth_eq]

/-! ### A write or read of the window as a step -/

theorem step_writeAt {s : State} {off : Nat} {v : Word} {rest : List Input} (h : s.HostDoes (writeAt off v) rest)
    (h8 : off % 8 = 0) (hlt : off < 0x200) :
    step s = .next (((s.withInputs rest).hostWrite (winRegAt off) v).respond .written) := by
  obtain ⟨hreset, hinputs⟩ := h
  rw [step_access hinputs hreset, writeAt, State.serve_write_window _ (length_toLanes v) h8 hlt, fromLanes_toLanes]

theorem step_readAt {s : State} {off : Nat} {rest : List Input} (h : s.HostDoes (readAt off) rest)
    (h8 : off % 8 = 0) (hlt : off < 0x200) :
    step s = .next ((s.withInputs rest).hostRead (winRegAt off)) := by
  obtain ⟨hreset, hinputs⟩ := h
  rw [step_access hinputs hreset, readAt, State.serve_read_window _ h8 hlt]

theorem State.hostWrite_of_idle {s : State} (hidle : s.busy = false) (r : WinReg) (v : Word) :
    s.hostWrite r v = s.writeReg r v := by
  simp [State.hostWrite, hidle]

theorem State.hostWrite_of_unlocked (s : State) {r : WinReg} (hr : r.lockedWhileBusy = false) (v : Word) :
    s.hostWrite r v = s.writeReg r v := by
  simp [State.hostWrite, hr]

theorem State.hostWrite_of_locked {s : State} (hbusy : s.busy = true) {r : WinReg} (hr : r.lockedWhileBusy = true)
    (v : Word) : s.hostWrite r v = s.dropWrite := by
  simp [State.hostWrite, hbusy, hr]

theorem State.hostRead_of_specified (s : State) {r : WinReg} (hr : r.unspecifiedWhileBusy = false) :
    s.hostRead r = s.respond (.data (toLanes (s.regValue r))) := by
  simp [State.hostRead, hr]

/-- While the block is idle every register takes a write by its own rule. -/
theorem step_writeAt_idle {s : State} {off : Nat} {v : Word} {rest : List Input} (h : s.HostDoes (writeAt off v) rest)
    (hidle : s.busy = false) (h8 : off % 8 = 0) (hlt : off < 0x200) :
    step s = .next (((s.withInputs rest).writeReg (winRegAt off) v).respond .written) := by
  rw [step_writeAt h h8 hlt, State.hostWrite_of_idle ((s.withInputs_busy rest).trans hidle)]

/-- A register that is never locked takes a write by its own rule at any time. -/
theorem step_writeAt_unlocked {s : State} {off : Nat} {v : Word} {rest : List Input}
    (h : s.HostDoes (writeAt off v) rest) (hr : (winRegAt off).lockedWhileBusy = false) (h8 : off % 8 = 0)
    (hlt : off < 0x200) :
    step s = .next (((s.withInputs rest).writeReg (winRegAt off) v).respond .written) := by
  rw [step_writeAt h h8 hlt, State.hostWrite_of_unlocked _ hr]

/-- A read of a register that is no draw, busy or not, is answered with the register's value (R44, R47). -/
theorem answers_of_readAt {s : State} {off : Nat} {rest : List Input} (h : s.HostDoes (readAt off) rest)
    (h8 : off % 8 = 0) (hlt : off < 0x200) (hr : (winRegAt off).unspecifiedWhileBusy = false) :
    s.Answers rest (s.regValue (winRegAt off)) := by
  rw [State.Answers, step_readAt h h8 hlt, State.hostRead_of_specified _ hr, State.regValue_withInputs]
  rfl

/-! ### CMD, CTRL, MOD, MMCNT, EXPBITS (R25, R26, R28, R30, R31) -/

/-- For CMD the lock of a busy block is CMD's own rule: both drop the write (R26, R46). -/
theorem State.hostWrite_cmd (s : State) (c : Word) : s.hostWrite .cmd c = s.writeCmd c := by
  cases hbusy : s.busy with
  | false => exact State.hostWrite_of_idle hbusy .cmd c
  | true =>
    rw [State.hostWrite_of_locked hbusy rfl]
    simp [State.writeCmd, hbusy]

/-- Settles O32: the step is the CMD rule `writeCmd`, whose two branches are the two clauses. -/
theorem commandAcceptance : Obligations.CommandAcceptance := by
  refine ⟨fun s c rest h => ?_, fun s rest h => answers_of_readAt h rfl (by decide) rfl⟩
  have hstep : step s = .next (((s.withInputs rest).writeCmd c).respond .written) := by
    rw [step_writeAt h rfl (by decide), show winRegAt 0x018 = .cmd from rfl, State.hostWrite_cmd]
  rcases (s.withInputs rest).writeCmd_cases c with ⟨hidle, hclean, hwrite⟩ | ⟨hblocked, hwrite⟩ <;>
    rw [hwrite] at hstep
  · exact ⟨fun _ => hstep, fun hnot => absurd ⟨hidle, hclean⟩ hnot⟩
  · refine ⟨fun ⟨hidle, hclean⟩ => ?_, fun _ => hstep⟩
    simp [hidle, hclean] at hblocked

/-- A bit of a word as a digit of its value. -/
theorem getLsbD_eq_decide_digit (v : Word) (k : Nat) : v.getLsbD k = decide (v.toNat / 2 ^ k % 2 = 1) :=
  Nat.testBit_eq_decide_div_mod_eq

/-- Settles O40: CTRL is never locked, and an idle block locks neither MOD nor MMCNT. -/
theorem plainRegisterWrites : Obligations.PlainRegisterWrites := by
  refine fun s v rest => ⟨fun h => ?_, fun h hidle => step_writeAt_idle h hidle rfl (by decide),
    fun h hidle => step_writeAt_idle h hidle rfl (by decide)⟩
  have hbit : v.getLsbD 0 = decide (v.toNat % 2 = 1) := by
    rw [getLsbD_eq_decide_digit, pow_zero, Nat.div_one]
  rw [← hbit]
  exact step_writeAt_unlocked h rfl rfl (by decide)

/-- EXPBITS after a write: a legal value fits its 7 bits, another one leaves it. -/
theorem State.toNat_writeExpbits_expbits (s : State) (v : Word) :
    (s.writeExpbits v).expbits.toNat = if 1 ≤ v.toNat ∧ v.toNat ≤ 64 then v.toNat else s.expbits.toNat := by
  rcases s.writeExpbits_cases v with ⟨hlow, hhigh, hwrite⟩ | ⟨houtside, hwrite⟩
  · rw [hwrite, if_pos ⟨hlow, hhigh⟩, BitVec.toNat_setWidth, Nat.mod_eq_of_lt (by omega)]
  · rw [hwrite, if_neg (by omega)]

theorem State.writeExpbits_frame (s : State) (v : Word) :
    s.writeExpbits v = { s with expbits := (s.writeExpbits v).expbits } := by
  rcases s.writeExpbits_cases v with ⟨-, -, hwrite⟩ | ⟨-, hwrite⟩ <;> rw [hwrite]

/-- Settles O41: an idle block leaves the write to EXPBITS' own rule; the read is no draw. -/
theorem expbitsKeepsLegalValue : Obligations.ExpbitsKeepsLegalValue := by
  refine ⟨fun s v rest h hidle => ?_, fun s rest h => ?_⟩
  · have hstep : step s = .next (((s.withInputs rest).writeExpbits v).respond .written) :=
      step_writeAt_idle h hidle rfl (by decide)
    refine ⟨_, hstep, ?_, (s.withInputs rest).toNat_writeExpbits_expbits v⟩
    rw [State.writeExpbits_frame]
    rfl
  · rw [BitVec.ofNat_toNat]
    exact answers_of_readAt h rfl (by decide) rfl

/-! ### STATUS (R20 to R24) -/

/-- The mask form of write-1-to-clear as a choice on the written digit. -/
theorem and_not_getLsbD_eq_ite (b : Bool) (v : Word) (k : Nat) :
    (b && !v.getLsbD k) = if v.toNat / 2 ^ k % 2 = 1 then false else b := by
  rw [getLsbD_eq_decide_digit]
  split <;> simp [*]

/-- Settles O38: STATUS is never locked; each clause is `clearStatus` at one bit. -/
theorem statusWriteClears : Obligations.StatusWriteClears := by
  intro s v rest h
  have hstep : step s = .next (((s.withInputs rest).clearStatus v).respond .written) :=
    step_writeAt_unlocked h rfl rfl (by decide)
  refine ⟨_, hstep, rfl, and_not_getLsbD_eq_ite s.done v 1, and_not_getLsbD_eq_ite s.err v 2,
    and_not_getLsbD_eq_ite s.ovr v 3, ?_⟩
  simp only [State.respond_errcode, State.clearStatus_errcode, State.withInputs_errcode, getLsbD_eq_decide_digit,
    decide_eq_true_eq, Nat.reducePow]

/-! ### OVR and ERR are sticky (R21, R22) -/

/-- Neither OVR nor ERR falls from `s` to `t`. -/
def State.KeepsErrorBits (s t : State) : Prop := (s.ovr = true → t.ovr = true) ∧ (s.err = true → t.err = true)

theorem execReduce_cases (rd rs1 rs2 : Reg) (s : State) :
    (∃ v, execReduce rd rs1 rs2 s = .next (s.complete rd v)) ∨
    execReduce rd rs1 rs2 s = .next (s.takeFault .redZero) := by
  by_cases hm : s.readW rs2 = Dw.zero
  · exact .inr (by rw [execReduce, hm, reduceFn_zero])
  · exact .inl ⟨_, by rw [execReduce, reduceFn_of_ne_zero _ hm]⟩

theorem execMontmul_cases (rd rs1 rs2 : Reg) (s : State) :
    (∃ v, execMontmul rd rs1 rs2 s = .next ((s.countProducts 1).complete rd v)) ∨
    execMontmul rd rs1 rs2 s = .next (s.takeFault .modZero) := by
  by_cases hmod : s.modulus = 0
  · exact .inr (if_pos hmod)
  · exact .inl ⟨_, if_neg hmod⟩

theorem execModexp_cases (rd rs1 rs2 : Reg) (s : State) :
    (∃ v, execModexp rd rs1 rs2 s = .next ((s.countProducts (2 * s.expBitCount)).complete rd v)) ∨
    execModexp rd rs1 rs2 s = .next (s.takeFault .modZero) := by
  by_cases hmod : s.modulus = 0
  · exact .inr (if_pos hmod)
  · exact .inl ⟨_, if_neg hmod⟩

/-- Everything a command can do (R33): it completes, counting products first where it multiplies, or it faults. -/
theorem exec_cases (i : Instr) (s : State) :
    (∃ v, exec i s = .next (s.complete i.rd v)) ∨
    (∃ n v, (i.opcode = 0x20 ∨ i.opcode = 0x30) ∧ exec i s = .next ((s.countProducts n).complete i.rd v)) ∨
    (∃ f, exec i s = .next (s.takeFault f)) := by
  cases i with
  | reduce rd rs1 rs2 =>
    rcases execReduce_cases rd rs1 rs2 s with ⟨v, h⟩ | h
    · exact .inl ⟨v, h⟩
    · exact .inr (.inr ⟨_, h⟩)
  | montmul rd rs1 rs2 =>
    rcases execMontmul_cases rd rs1 rs2 s with ⟨v, h⟩ | h
    · exact .inr (.inl ⟨_, v, .inl rfl, h⟩)
    · exact .inr (.inr ⟨_, h⟩)
  | modexp rd rs1 rs2 =>
    rcases execModexp_cases rd rs1 rs2 s with ⟨v, h⟩ | h
    · exact .inr (.inl ⟨_, v, .inr rfl, h⟩)
    · exact .inr (.inr ⟨_, h⟩)
  | _ => exact .inl ⟨_, rfl⟩

theorem exec_keepsErrorBits {i : Instr} {s t : State} (h : exec i s = .next t) : s.KeepsErrorBits t := by
  rcases exec_cases i s with ⟨v, he⟩ | ⟨n, v, -, he⟩ | ⟨f, he⟩ <;> cases he.symm.trans h
  · exact ⟨id, id⟩
  · exact ⟨id, id⟩
  · exact ⟨id, fun _ => rfl⟩

theorem engineStep_keepsErrorBits {s t : State} (h : engineStep s = .next t) : s.KeepsErrorBits t := by
  rcases engineStep_cases s with ⟨-, he⟩ | ⟨-, i, -, he⟩ | ⟨-, f, -, he⟩
  · cases he.symm.trans h
    exact ⟨id, id⟩
  · exact exec_keepsErrorBits (he.symm.trans h)
  · cases he.symm.trans h
    exact ⟨id, fun _ => rfl⟩

theorem State.hostRead_keepsErrorBits (s : State) (r : WinReg) : s.KeepsErrorBits (s.hostRead r) := by
  rw [State.hostRead_frame]
  exact ⟨id, id⟩

theorem State.hostWrite_keepsErrorBits (s : State) {r : WinReg} (hr : r ≠ .status) (v : Word) :
    s.KeepsErrorBits (s.hostWrite r v) := by
  unfold State.hostWrite
  split
  case isTrue => exact ⟨fun _ => rfl, id⟩
  case isFalse =>
    cases r with
    | status => exact absurd rfl hr
    | cmd =>
      rcases s.writeCmd_cases v with ⟨-, -, hw⟩ | ⟨-, hw⟩ <;> rw [State.writeReg, hw]
      · exact ⟨id, id⟩
      · exact ⟨fun _ => rfl, id⟩
    | expbits =>
      rw [State.writeReg, State.writeExpbits_frame]
      exact ⟨id, id⟩
    | _ => exact ⟨id, id⟩

/-- STATUS stands at one offset of the map (R17). -/
theorem eq_of_winRegAt_eq_status {off : Nat} (h : winRegAt off = .status) : off = 0x008 := by
  unfold winRegAt at h
  split at h
  case h_2 => rfl
  case h_10 => split_ifs at h
  all_goals cases h

/-- What a host access does to OVR and ERR: a write of STATUS clears them by its bits, any other access keeps them. -/
theorem State.serve_errorBits_cases (s : State) (a : HostAccess) :
    (∃ data, a = .write (Config.base + 0x008) data ∧
      (s.serve a).ovr = (s.ovr && !(fromLanes data).getLsbD 3) ∧
      (s.serve a).err = (s.err && !(fromLanes data).getLsbD 2)) ∨
    s.KeepsErrorBits (s.serve a) := by
  rcases s.serve_cases a with hserve | ⟨off, -, -, -, hserve⟩ | ⟨off, data, -, -, rfl, -, hserve⟩ <;> rw [hserve]
  · exact .inr ⟨id, id⟩
  · exact .inr (s.hostRead_keepsErrorBits _)
  · by_cases hstatus : winRegAt off = .status
    · obtain rfl := eq_of_winRegAt_eq_status hstatus
      rw [State.hostWrite_of_unlocked _ rfl]
      exact .inl ⟨data, rfl, rfl, rfl⟩
    · exact .inr (s.hostWrite_keepsErrorBits hstatus _)

/-- What a step does to OVR and ERR: only the assertion of reset and a write of STATUS can clear them. -/
theorem step_errorBits_cases {s t : State} (h : step s = .next t) :
    (∃ rest, s.inputs = .assertReset :: rest) ∨
    (∃ data rest, s.inputs = .access (.write (Config.base + 0x008) data) :: rest ∧
      t.ovr = (s.ovr && !(fromLanes data).getLsbD 3) ∧ t.err = (s.err && !(fromLanes data).getLsbD 2)) ∨
    s.KeepsErrorBits t := by
  rcases step_cases s with ⟨-, hs⟩ | ⟨rest, -, hs⟩ | ⟨a, rest, hin, -, hs⟩ | ⟨a, rest, -, -, hs⟩ | ⟨rest, hin, -⟩ |
    ⟨rest, -, hs⟩
  · exact .inr (.inr (engineStep_keepsErrorBits (hs.symm.trans h)))
  · exact .inr (.inr (engineStep_keepsErrorBits (s := s.withInputs rest) (hs.symm.trans h)))
  · cases hs.symm.trans h
    rcases (s.withInputs rest).serve_errorBits_cases a with ⟨data, rfl, hovr, herr⟩ | hkeeps
    · exact .inr (.inl ⟨data, rest, hin, hovr, herr⟩)
    · exact .inr (.inr hkeeps)
  · cases hs.symm.trans h
  · exact .inl ⟨rest, hin⟩
  · cases hs.symm.trans h
    exact .inr (.inr ⟨id, id⟩)

/-- Settles O48: of the three things a step can do to OVR and ERR, only the two named ones clear a bit. -/
theorem stickyUntilCleared : Obligations.StickyUntilCleared := by
  intro s t h
  rcases step_errorBits_cases h with hreset | ⟨data, rest, hin, hovr, herr⟩ | ⟨hovr, herr⟩
  · exact ⟨fun _ _ => .inr hreset, fun _ _ => .inr hreset⟩
  · refine ⟨fun hset hclear => .inl ⟨data, rest, hin, ?_⟩, fun hset hclear => .inl ⟨data, rest, hin, ?_⟩⟩
    · simpa [hset, hclear] using hovr
    · simpa [hset, hclear] using herr
  · exact ⟨fun hset hclear => absurd (hovr hset) (by simp [hclear]),
      fun hset hclear => absurd (herr hset) (by simp [hclear])⟩

end Sys2Proof.Machine
end

section
/-! The window's map and its W half (R17, R40, R41, R43, R45, R47): which registers the reserved offsets and the offsets
from 0x100 on are, a read that is a draw, a write of one half, and the 16 bytes of a W register. -/

namespace Sys2Proof.Machine

/-! ### The register map (R17) -/

/-- The reserved offsets of R43, by their range. -/
theorem winRegAt_of_reserved_range {off : Nat} (hlow : 0x048 ≤ off) (hhigh : off < 0x100) (h8 : off % 8 = 0) :
    winRegAt off = .reserved := by
  have hoff : off = 0x048 + 8 * ((off - 0x048) / 8) := by omega
  rw [hoff]
  exact winRegAt_reserved ⟨(off - 0x048) / 8, by omega⟩

/-- From 0x100 on the window holds the halves of the W registers, lo first (R40). -/
theorem exists_winRegAt_eq_half {off : Nat} (hlow : 0x100 ≤ off) (hhigh : off < 0x200) (h8 : off % 8 = 0) :
    ∃ i : Reg, winRegAt off = .wLo i ∨ winRegAt off = .wHi i := by
  have hindex : (off - 0x100) / 16 < 16 := by omega
  refine ⟨⟨_, hindex⟩, ?_⟩
  have hhalf : off = 0x100 + 16 * ((off - 0x100) / 16) ∨ off = 0x108 + 16 * ((off - 0x100) / 16) := by omega
  rcases hhalf with hoff | hoff
  · exact .inl ((congrArg winRegAt hoff).trans (winRegAt_wLo ⟨_, hindex⟩))
  · exact .inr ((congrArg winRegAt hoff).trans (winRegAt_wHi ⟨_, hindex⟩))

/-! ### Reads while BUSY (R47) -/

theorem State.hostRead_of_draw {s : State} (hbusy : s.busy = true) {r : WinReg} (hr : r.unspecifiedWhileBusy = true) :
    s.hostRead r = (s.respond (.data (toLanes s.freeWord))).drawn := by
  simp [State.hostRead, hbusy, hr]

/-- MMCNT and the W halves are the draws. -/
theorem unspecifiedWhileBusy_winRegAt {off : Nat} (hoff : off = 0x040 ∨ (0x100 ≤ off ∧ off < 0x200 ∧ off % 8 = 0)) :
    (winRegAt off).unspecifiedWhileBusy = true := by
  rcases hoff with rfl | ⟨hlow, hhigh, h8⟩
  · rfl
  · obtain ⟨i, hi | hi⟩ := exists_winRegAt_eq_half hlow hhigh h8 <;> rw [hi] <;> rfl

/-- Reserved offsets read as 0 at any time (R43). -/
theorem answers_zero_of_reserved {s : State} {off : Nat} {rest : List Input} (h : s.HostDoes (readAt off) rest)
    (hlow : 0x048 ≤ off) (hhigh : off < 0x100) (h8 : off % 8 = 0) : s.Answers rest 0 := by
  have hreg : winRegAt off = .reserved := winRegAt_of_reserved_range hlow hhigh h8
  have hanswer := answers_of_readAt h h8 (by omega) (by rw [hreg]; rfl)
  rwa [hreg] at hanswer

/-- Settles O34: the first clause is the draw, the last the reserved range; every clause between names one register that
is no draw and answers with its value. -/
theorem busyReadsAreDraws : Obligations.BusyReadsAreDraws := by
  intro s off rest h hbusy
  refine ⟨fun hoff => ?draw, ?_, ?_, ?_, ?_, ?_, ?_, ?_, ?expbits,
    fun ⟨hlow, hhigh, h8⟩ => answers_zero_of_reserved h hlow hhigh h8⟩
  case draw =>
    have hwaiting : (s.withInputs rest).busy = true := hbusy
    rw [step_readAt h (by omega) (by omega), State.hostRead_of_draw hwaiting (unspecifiedWhileBusy_winRegAt hoff)]
    rfl
  case expbits =>
    rintro rfl
    rw [BitVec.ofNat_toNat]
    exact answers_of_readAt h rfl (by decide) rfl
  all_goals
    rintro rfl
    exact answers_of_readAt h rfl (by decide) rfl

/-! ### Writes that do nothing (R43, R45) -/

/-- The registers that no host write changes. -/
def WinReg.ReadOnly (r : WinReg) : Prop := r = .id ∨ r = .errcmd ∨ r = .mlen ∨ r = .reserved

theorem State.hostWrite_readOnly (s : State) {r : WinReg} (hr : r.ReadOnly) (v : Word) : s.hostWrite r v = s := by
  rcases hr with rfl | rfl | rfl | rfl <;> exact s.hostWrite_of_unlocked rfl v

/-- Settles O43: each of the offsets holds a read-only register. -/
theorem readOnlyWritesIgnored : Obligations.ReadOnlyWritesIgnored := by
  intro s off v rest h hoff
  simp only [List.mem_cons, List.not_mem_nil, or_false] at hoff
  have hreg : (winRegAt off).ReadOnly := by
    rcases hoff with (rfl | rfl | rfl) | ⟨hlow, hhigh, h8⟩
    · exact .inl rfl
    · exact .inr (.inl rfl)
    · exact .inr (.inr (.inl rfl))
    · exact .inr (.inr (.inr (winRegAt_of_reserved_range hlow hhigh h8)))
  rw [step_writeAt h (by omega) (by omega), State.hostWrite_readOnly _ hreg]
  rfl

/-! ### A write of one W half (R40) -/

/-- A step that is one write of `W[i]`: what it leaves unchanged. -/
theorem exists_next_of_step_writeW {s : State} {i : Reg} {x : Dw} {rest : List Input}
    (hstep : step s = .next (((s.withInputs rest).writeW i x).respond .written)) :
    ∃ t, step s = .next t ∧ t.readW i = x ∧ (∀ j, j ≠ i → t.readW j = s.readW j) ∧
      t = { s with inputs := rest, response := some .written, w := t.w } :=
  ⟨_, hstep, State.readW_writeW_same _ i x, fun _ hj => State.readW_writeW_other _ x hj, rfl⟩

/-- Settles O42: each offset names one half, and `writeHalf` is a write of `W[i]` with the other half as it was. -/
theorem halfWriteLeavesOtherHalf : Obligations.HalfWriteLeavesOtherHalf := by
  refine fun s i v rest hidle => ⟨fun h => exists_next_of_step_writeW ?_, fun h => exists_next_of_step_writeW ?_⟩
  · rw [step_writeAt_idle h hidle (by omega) (by omega), winRegAt_wLo]
    rfl
  · rw [step_writeAt_idle h hidle (by omega) (by omega), winRegAt_wHi]
    rfl

/-! ### The lanes of a W register (R41) -/

theorem toLanes_eq_map_laneByte (v : Word) : toLanes v = (List.range 8).map (laneByte v) := rfl

theorem lanesVal_append (as bs : List Byte) : lanesVal (as ++ bs) = lanesVal as + 256 ^ as.length * lanesVal bs := by
  induction as with
  | nil => simp [lanesVal]
  | cons a as ih =>
    rw [List.cons_append, lanesVal, lanesVal, ih, List.length_cons, pow_succ]
    ring

/-- A byte of the window is a lane of the register at the multiple of 8 below it. -/
theorem State.windowByte_add (s : State) {off k : Nat} (h8 : off % 8 = 0) (hk : k < 8) :
    s.windowByte (off + k) = laneByte (s.regValue (winRegAt off)) k := by
  have hlane : (off + k) % 8 = k := by omega
  rw [State.windowByte, hlane, Nat.add_sub_cancel]

/-- Eight bytes of the window from a multiple of 8 on are the lanes of the register there. -/
theorem State.map_windowByte_eq_toLanes (s : State) {off : Nat} (h8 : off % 8 = 0) :
    ((List.range 8).map fun k => s.windowByte (off + k)) = toLanes (s.regValue (winRegAt off)) :=
  List.map_congr_left fun _ hk => s.windowByte_add h8 (List.mem_range.mp hk)

/-- The 16 bytes at 0x100 + 16i are the lanes of the lo half, then those of the hi half. -/
theorem State.map_windowByte_eq_halves (s : State) (i : Reg) :
    ((List.range 16).map fun k => s.windowByte (0x100 + 16 * i.val + k)) =
      toLanes (s.readW i).lo ++ toLanes (s.readW i).hi := by
  have hlo := s.map_windowByte_eq_toLanes (off := 0x100 + 16 * i.val) (by omega)
  have hhi := s.map_windowByte_eq_toLanes (off := 0x108 + 16 * i.val) (by omega)
  rw [winRegAt_wLo] at hlo
  rw [winRegAt_wHi] at hhi
  have hshift (k : Nat) : 0x100 + 16 * i.val + (8 + k) = 0x108 + 16 * i.val + k := by omega
  rw [show List.range 16 = List.range 8 ++ (List.range 8).map (8 + ·) from rfl, List.map_append, List.map_map]
  simp only [Function.comp_def, hshift]
  exact congrArg₂ (· ++ ·) hlo hhi

/-- Settles O44: a write's lanes are the base-256 digits of its value, and a W register's bytes are the lanes of its
halves, the hi half weighted by 256^8 = 2^64. -/
theorem littleEndianLanes : Obligations.LittleEndianLanes := by
  refine ⟨fun v k hk => ⟨?_, toNat_laneByte v k⟩, fromLanes_toLanes, fun s i => ?_⟩
  · simp [toLanes_eq_map_laneByte, hk]
  · rw [State.map_windowByte_eq_halves, lanesVal_append, lanesVal_toLanes, lanesVal_toLanes, length_toLanes, Dw.val]
    omega

end Sys2Proof.Machine
end

section
/-! The faults of the decoder (R58, R59, R61). The decoder is said once, as an inversion over the opcode map
(`decode_cases`); a reserved bit then is a nonzero field of the word that lies outside the bits its row uses. -/

namespace Sys2Proof

/-! ### The rows of the opcode map (R57) -/

/-- The opcodes of the map, in its order. -/
def definedOpcodes : List Nat := [0x01, 0x02, 0x03, 0x04, 0x05, 0x06, 0x07, 0x08, 0x10, 0x20, 0x30]

/-- The bits of `c[31:0]` that a command's row uses (R61). -/
def Instr.usedBits : Instr → BitVec 32
  | .fromsingle _ _ => usedRdRs1
  | .add _ _ _ => usedRdRs1Rs2
  | .sub _ _ _ => usedRdRs1Rs2
  | .shl _ _ => usedRdRs1
  | .shr _ _ => usedRdRs1
  | .getbit _ _ _ => usedRdRs1Imm8
  | .gt _ _ _ => usedRdRs1Rs2
  | .eq _ _ _ => usedRdRs1Rs2
  | .reduce _ _ _ => usedRdRs1Rs2
  | .montmul _ _ _ => usedRdRs1Rs2
  | .modexp _ _ _ => usedRdRs1Rs2

theorem Instr.opcode_mem_definedOpcodes (i : Instr) : i.opcode.toNat ∈ definedOpcodes := by
  cases i <;> simp [Instr.opcode, definedOpcodes]

/-- No row uses `c[31:28]`. -/
theorem Instr.usedBits_top (i : Instr) : i.usedBits.extractLsb' 28 4 = 0#4 := by
  cases i <;> simp [Instr.usedBits, usedRdRs1, usedRdRs1Rs2, usedRdRs1Imm8]

/-- Only GETBIT uses the immediate's bits. -/
theorem Instr.usedBits_imm8 {i : Instr} (h : i.opcode.toNat ≠ 0x06) : i.usedBits.extractLsb' 20 8 = 0#8 := by
  cases i
  case getbit => exact absurd rfl h
  all_goals simp [Instr.usedBits, usedRdRs1, usedRdRs1Rs2]

/-- FROMSINGLE, SHL, SHR and GETBIT do not use the bits of `rs2`. -/
theorem Instr.usedBits_rs2 {i : Instr} (h : i.opcode.toNat ∈ [0x01, 0x04, 0x05, 0x06]) :
    i.usedBits.extractLsb' 16 4 = 0#4 := by
  cases i
  case fromsingle | shl | shr | getbit => simp [Instr.usedBits, usedRdRs1, usedRdRs1Imm8]
  all_goals simp [Instr.opcode] at h

/-! ### The decoder -/

theorem toNat_opField (c : Word) : (opField c).toNat = c.toNat % 256 := by
  simp [opField]

/-- Everything the decoder can do: refuse an opcode outside the map, or put a command of the opcode's row to the
reserved check with the bits that this row uses. -/
theorem decode_cases (c : Word) :
    (c.toNat % 256 ∉ definedOpcodes ∧ decode c = .error .illegalOpcode) ∨
    ∃ i : Instr, decode c = checkReserved c i.usedBits i ∧ i.opcode.toNat = c.toNat % 256 := by
  rw [← toNat_opField]
  unfold decode
  generalize (opField c).toNat = op
  split
  · exact .inr ⟨.fromsingle _ _, rfl, rfl⟩
  · exact .inr ⟨.add _ _ _, rfl, rfl⟩
  · exact .inr ⟨.sub _ _ _, rfl, rfl⟩
  · exact .inr ⟨.shl _ _, rfl, rfl⟩
  · exact .inr ⟨.shr _ _, rfl, rfl⟩
  · exact .inr ⟨.getbit _ _ _, rfl, rfl⟩
  · exact .inr ⟨.gt _ _ _, rfl, rfl⟩
  · exact .inr ⟨.eq _ _ _, rfl, rfl⟩
  · exact .inr ⟨.reduce _ _ _, rfl, rfl⟩
  · exact .inr ⟨.montmul _ _ _, rfl, rfl⟩
  · exact .inr ⟨.modexp _ _ _, rfl, rfl⟩
  · exact .inl ⟨by simp_all [definedOpcodes], rfl⟩

theorem decode_of_undefined {c : Word} (hop : c.toNat % 256 ∉ definedOpcodes) :
    decode c = .error .illegalOpcode := by
  rcases decode_cases c with ⟨-, hdecode⟩ | ⟨i, -, hi⟩
  · exact hdecode
  · exact absurd (hi ▸ i.opcode_mem_definedOpcodes) hop

theorem decode_of_defined {c : Word} (hop : c.toNat % 256 ∈ definedOpcodes) :
    ∃ i : Instr, decode c = checkReserved c i.usedBits i ∧ i.opcode.toNat = c.toNat % 256 := by
  rcases decode_cases c with ⟨hnot, -⟩ | hrow
  · exact absurd hop hnot
  · exact hrow

/-! ### The reserved check (R58) -/

theorem checkReserved_of_highHalf {c : Word} (hc : c.toNat / 2 ^ 32 ≠ 0) (used : BitVec 32) (i : Instr) :
    checkReserved c used i = .error .reservedField := by
  rcases Machine.checkReserved_cases c used i with ⟨-, hhigh, -⟩ | ⟨hfault, -⟩
  · have hzero : c.toNat / 2 ^ 32 % 2 ^ 32 = 0 := by
      simpa [Nat.shiftRight_eq_div_pow] using congrArg BitVec.toNat hhigh
    omega
  · exact hfault

/-- A nonzero field of `c[31:0]` none of whose bits the row uses. -/
theorem checkReserved_of_unusedField {c : Word} {used : BitVec 32} {start len : Nat} (hlen : start + len ≤ 32)
    (hused : used.extractLsb' start len = 0#len) (hc : c.toNat / 2 ^ start % 2 ^ len ≠ 0) (i : Instr) :
    checkReserved c used i = .error .reservedField := by
  rcases Machine.checkReserved_cases c used i with ⟨-, -, hlow⟩ | ⟨hfault, -⟩
  · have hfield : c.extractLsb' start len = 0#len := by
      ext k hk
      have hk32 : start + k < 32 := by omega
      have hbit : c.getLsbD (start + k) = true → used.getLsbD (start + k) = true := by
        simpa [hk32] using congrArg (·.getLsbD (start + k)) hlow
      have hunused : used.getLsbD (start + k) = false := by
        simpa [hk] using congrArg (·.getLsbD k) hused
      simpa [hunused] using hbit
    have hzero : c.toNat / 2 ^ start % 2 ^ len = 0 := by
      simpa [Nat.shiftRight_eq_div_pow] using congrArg BitVec.toNat hfield
    exact absurd hzero hc
  · exact hfault

end Sys2Proof

namespace Sys2Proof.Machine

/-! ### The fault at the engine step -/

theorem exists_faulted_of_decode_error {s : State} {f : CmdFault} (hbusy : s.busy = true)
    (hdecode : decode s.pending = .error f) : ∃ t, engineStep s = .next t ∧ Faulted s t (faultCode f) :=
  ⟨_, engineStep_decodeFault hbusy hdecode, rfl⟩

/-- Settles O5: the decoder refuses the opcode before it reads any other bit. -/
theorem undefinedOpcodeFaults : Obligations.UndefinedOpcodeFaults :=
  fun _ hbusy hop => exists_faulted_of_decode_error hbusy (decode_of_undefined hop)

/-- Settles O6: each of the four kinds of reserved bit is a nonzero part of the word outside the row's used bits. -/
theorem reservedBitsFault : Obligations.ReservedBitsFault := by
  intro s hbusy c op hop hreserved
  obtain ⟨i, hdecode, hi⟩ := decode_of_defined hop
  suffices hcheck : checkReserved s.pending i.usedBits i = .error .reservedField from
    exists_faulted_of_decode_error hbusy (hdecode.trans hcheck)
  rcases hreserved with hhigh | htop | ⟨hrow, himm8⟩ | ⟨hrow, hrs2⟩
  · exact checkReserved_of_highHalf hhigh _ i
  · exact checkReserved_of_unusedField (by decide) i.usedBits_top htop i
  · exact checkReserved_of_unusedField (by decide) (Instr.usedBits_imm8 (hi ▸ hrow)) himm8 i
  · exact checkReserved_of_unusedField (by decide) (Instr.usedBits_rs2 (hi ▸ hrow)) hrs2 i

end Sys2Proof.Machine
end

section
/-! The command word of a command's fields (R54, R57): the sum of a well-formed command's fields in their places decodes
to that command. -/

namespace Sys2Proof

/-- `rs1` of a command (R54); every row uses it. -/
def Instr.rs1 : Instr → Reg
  | .fromsingle _ rs1 => rs1
  | .add _ rs1 _ => rs1
  | .sub _ rs1 _ => rs1
  | .shl _ rs1 => rs1
  | .shr _ rs1 => rs1
  | .getbit _ rs1 _ => rs1
  | .gt _ rs1 _ => rs1
  | .eq _ rs1 _ => rs1
  | .reduce _ rs1 _ => rs1
  | .montmul _ rs1 _ => rs1
  | .modexp _ rs1 _ => rs1

/-- `rs2` of a command, 0 in a row that does not use it (R58). -/
def Instr.rs2 : Instr → Reg
  | .fromsingle _ _ => 0
  | .add _ _ rs2 => rs2
  | .sub _ _ rs2 => rs2
  | .shl _ _ => 0
  | .shr _ _ => 0
  | .getbit _ _ _ => 0
  | .gt _ _ rs2 => rs2
  | .eq _ _ rs2 => rs2
  | .reduce _ _ rs2 => rs2
  | .montmul _ _ rs2 => rs2
  | .modexp _ _ rs2 => rs2

/-- `imm8` of a command, 0 in every row but GETBIT's (R56, R58). -/
def Instr.imm8 : Instr → Nat
  | .getbit _ _ i => i
  | _ => 0

/-- The sum of a command's fields in their places. -/
def Instr.word (i : Instr) : Word := Machine.fieldsWord i.opcode.toNat i.rd i.rs1 i.rs2 i.imm8

theorem Instr.imm8_lt_of_wf {i : Instr} (h : i.wf = true) : i.imm8 < 256 := by
  cases i
  case getbit => exact Nat.lt_succ_of_le (of_decide_eq_true h)
  all_goals exact Nat.zero_lt_succ _

end Sys2Proof

namespace Sys2Proof.Machine

/-! ### The fields of the word -/

section
variable {op imm8 : Nat} (rd rs1 rs2 : Reg) (hop : op < 256) (himm8 : imm8 < 256)
include hop himm8

theorem toNat_fieldsWord : (fieldsWord op rd rs1 rs2 imm8).toNat =
    op + 2 ^ 8 * rd.val + 2 ^ 12 * rs1.val + 2 ^ 16 * rs2.val + 2 ^ 20 * imm8 := by
  rw [fieldsWord, BitVec.toNat_ofNat]
  omega

theorem toNat_extractLsb'_fieldsWord (start len : Nat) :
    ((fieldsWord op rd rs1 rs2 imm8).extractLsb' start len).toNat =
      (op + 2 ^ 8 * rd.val + 2 ^ 12 * rs1.val + 2 ^ 16 * rs2.val + 2 ^ 20 * imm8) / 2 ^ start % 2 ^ len := by
  rw [BitVec.extractLsb'_toNat, Nat.shiftRight_eq_div_pow, toNat_fieldsWord rd rs1 rs2 hop himm8]

theorem toNat_opField_fieldsWord : (opField (fieldsWord op rd rs1 rs2 imm8)).toNat = op := by
  rw [opField, toNat_extractLsb'_fieldsWord rd rs1 rs2 hop himm8]
  omega

theorem rdField_fieldsWord : rdField (fieldsWord op rd rs1 rs2 imm8) = rd := by
  apply Fin.ext
  rw [rdField, BitVec.val_toFin, toNat_extractLsb'_fieldsWord rd rs1 rs2 hop himm8]
  omega

theorem rs1Field_fieldsWord : rs1Field (fieldsWord op rd rs1 rs2 imm8) = rs1 := by
  apply Fin.ext
  rw [rs1Field, BitVec.val_toFin, toNat_extractLsb'_fieldsWord rd rs1 rs2 hop himm8]
  omega

theorem rs2Field_fieldsWord : rs2Field (fieldsWord op rd rs1 rs2 imm8) = rs2 := by
  apply Fin.ext
  rw [rs2Field, BitVec.val_toFin, toNat_extractLsb'_fieldsWord rd rs1 rs2 hop himm8]
  omega

theorem imm8Field_fieldsWord : imm8Field (fieldsWord op rd rs1 rs2 imm8) = imm8 := by
  rw [imm8Field, toNat_extractLsb'_fieldsWord rd rs1 rs2 hop himm8]
  omega

end

/-! ### The reserved check passes -/

theorem checkReserved_of_bits_used {c : Word} {used : BitVec 32}
    (h : ∀ k, c.getLsbD k = true → used.getLsbD k = true) (i : Instr) : checkReserved c used i = .ok i := by
  have hhigh : c.extractLsb' 32 32 = 0 := by
    refine BitVec.eq_of_getLsbD_eq fun k hk => ?_
    have hclear : c.getLsbD (32 + k) = false := by
      by_contra hset
      simpa using h (32 + k) (by simpa using hset)
    simp [hclear]
  have hlow : c.extractLsb' 0 32 &&& ~~~used = 0 := by
    refine BitVec.eq_of_getLsbD_eq fun k hk => ?_
    simpa [hk] using h k
  simp [checkReserved, hhigh, hlow]

/-- A word of at most `n` digits whose field `[start, start + len)` is 0, where the row uses every other bit below `n`. -/
theorem checkReserved_of_unused_zero {c : Word} {used : BitVec 32} {n start len : Nat} (hc : c.toNat < 2 ^ n)
    (hgap : c.toNat / 2 ^ start % 2 ^ len = 0)
    (hused : ∀ k < n, k < start ∨ start + len ≤ k → used.getLsbD k = true) (i : Instr) :
    checkReserved c used i = .ok i := by
  refine checkReserved_of_bits_used (fun k hk => hused k ?_ ?_) i
  · by_contra hge
    have hclear := Nat.testBit_lt_two_pow (hc.trans_le (Nat.pow_le_pow_right two_pos (not_lt.mp hge)))
    exact Bool.false_ne_true (hclear.symm.trans hk)
  · by_contra hin
    have hbit : (c.toNat / 2 ^ start % 2 ^ len).testBit (k - start) = c.getLsbD k := by
      rw [Nat.testBit_mod_two_pow, Nat.testBit_div_two_pow, Nat.sub_add_cancel (by omega), BitVec.testBit_toNat,
        decide_eq_true (by omega), Bool.true_and]
    rw [hgap, Nat.zero_testBit, hk] at hbit
    exact Bool.false_ne_true hbit

theorem checkReserved_of_lt {c : Word} {used : BitVec 32} {n : Nat} (hc : c.toNat < 2 ^ n)
    (hused : ∀ k < n, used.getLsbD k = true) (i : Instr) : checkReserved c used i = .ok i :=
  checkReserved_of_unused_zero (start := 0) (len := 0) hc (Nat.mod_one _) (fun k hk _ => hused k hk) i

theorem usedRdRs1_getLsbD : ∀ k < 16, usedRdRs1.getLsbD k = true := by decide

theorem usedRdRs1Rs2_getLsbD : ∀ k < 20, usedRdRs1Rs2.getLsbD k = true := by decide

theorem usedRdRs1Imm8_getLsbD : ∀ k < 28, k < 16 ∨ 16 + 4 ≤ k → usedRdRs1Imm8.getLsbD k = true := by decide

/-! ### The decoder gives the command back -/

theorem toNat_word {i : Instr} (h : i.wf = true) : i.word.toNat =
    i.opcode.toNat + 2 ^ 8 * i.rd.val + 2 ^ 12 * i.rs1.val + 2 ^ 16 * i.rs2.val + 2 ^ 20 * i.imm8 :=
  toNat_fieldsWord _ _ _ i.opcode.isLt (Instr.imm8_lt_of_wf h)

theorem checkReserved_word {i : Instr} (h : i.wf = true) : checkReserved i.word i.usedBits i = .ok i := by
  have hop := i.opcode.isLt
  have himm8 := Instr.imm8_lt_of_wf h
  have hword := toNat_word h
  cases i
  case fromsingle | shl | shr =>
    simp only [Instr.rs2, Instr.imm8, Fin.val_zero] at hword
    exact checkReserved_of_lt (by omega) usedRdRs1_getLsbD _
  case getbit =>
    simp only [Instr.rs2, Fin.val_zero] at hword
    exact checkReserved_of_unused_zero (by omega) (by omega) usedRdRs1Imm8_getLsbD _
  all_goals
    simp only [Instr.imm8] at hword
    exact checkReserved_of_lt (by omega) usedRdRs1Rs2_getLsbD _

/-- The word of a well-formed command decodes to it. -/
theorem decode_word {i : Instr} (h : i.wf = true) : decode i.word = .ok i := by
  have hop := i.opcode.isLt
  have himm8 := Instr.imm8_lt_of_wf h
  have hcheck := checkReserved_word h
  rw [Instr.word] at hcheck ⊢
  unfold decode
  rw [toNat_opField_fieldsWord _ _ _ hop himm8, rdField_fieldsWord _ _ _ hop himm8, rs1Field_fieldsWord _ _ _ hop himm8,
    rs2Field_fieldsWord _ _ _ hop himm8, imm8Field_fieldsWord _ _ _ hop himm8]
  cases i <;> exact hcheck

end Sys2Proof.Machine
end

section
/-! The DoubleWidth ALU's unit functions over the values of their operands (R72). -/

namespace Sys2Proof

/-! ### The value of a DoubleWidth word (R3) -/

theorem Dw.val_lt (x : Dw) : x.val < 2 ^ 128 := by
  have hhi := x.hi.isLt
  have hlo := x.lo.isLt
  unfold Dw.val
  omega

theorem Dw.val_mod_two_pow_64 (x : Dw) : x.val % 2 ^ 64 = x.lo.toNat := by
  rw [Dw.val, Nat.mul_add_mod_self_right, Nat.mod_eq_of_lt x.lo.isLt]

theorem Dw.val_inj {a b : Dw} : a.val = b.val ↔ a.hi = b.hi ∧ a.lo = b.lo := by
  have ha := a.lo.isLt
  have hb := b.lo.isLt
  simp only [Dw.val, ← BitVec.toNat_inj]
  omega

theorem Dw.eq_of_val_eq {a b : Dw} (h : a.val = b.val) : a = b := by
  obtain ⟨hhi, hlo⟩ := Dw.val_inj.mp h
  cases a
  cases b
  exact congrArg₂ Dw.mk hhi hlo

theorem Dw.val_lt_iff {a b : Dw} : a.val < b.val ↔ a.hi < b.hi ∨ (a.hi = b.hi ∧ a.lo < b.lo) := by
  have ha := a.lo.isLt
  have hb := b.lo.isLt
  simp only [Dw.val, ← BitVec.toNat_inj, BitVec.lt_def]
  omega

theorem Dw.testBit_val (x : Dw) (i : Nat) :
    x.val.testBit i = if i < 64 then x.lo.getLsbD i else x.hi.getLsbD (i - 64) := by
  rw [Dw.val, Nat.mul_comm, Nat.testBit_two_pow_mul_add _ x.lo.isLt]
  rfl

end Sys2Proof

namespace Sys2Proof.Machine

/-! ### A bit as a word -/

theorem bitWord_decide (p : Prop) [Decidable p] : bitWord (decide p) = if p then 1 else 0 := by
  simp only [bitWord, decide_eq_true_eq]

theorem toNat_bitWord (b : Bool) : (bitWord b).toNat = b.toNat := by
  cases b <;> rfl

theorem toNat_bitWord_decide (p : Prop) [Decidable p] : (bitWord (decide p)).toNat = if p then 1 else 0 := by
  rw [toNat_bitWord, Bool.toNat, Bool.cond_decide]

theorem getLsbD_bitWord (b : Bool) (k : Nat) : (bitWord b).getLsbD k = (b && decide (k = 0)) := by
  cases b <;> simp [bitWord]

theorem val_zextLimb (v : Word) : (zextLimb v).val = v.toNat := by
  simp [zextLimb, Dw.val]

/-! ### Sum and difference: the carry and the borrow between the halves -/

theorem carryBit_eq_ite (lo aLo : Word) : carryBit lo aLo = if lo.toNat < aLo.toNat then 1 else 0 := by
  rw [carryBit, bitWord_decide]
  rfl

theorem borrowBit_eq_ite (lo aLo : Word) : borrowBit lo aLo = if lo.toNat > aLo.toNat then 1 else 0 := by
  rw [borrowBit, bitWord_decide]
  rfl

theorem val_dwAdd (a b : Dw) : (dwAdd a b).val = (a.val + b.val) % 2 ^ 128 := by
  have halo := a.lo.isLt
  have hblo := b.lo.isLt
  simp only [dwAdd, Dw.val, carryBit, toNat_bitWord_decide, BitVec.lt_def, BitVec.toNat_add]
  split <;> omega

theorem val_dwSub (a b : Dw) : ((dwSub a b).val : Int) = ((a.val : Int) - b.val) % 2 ^ 128 := by
  have halo := a.lo.isLt
  have hblo := b.lo.isLt
  have hahi := a.hi.isLt
  have hbhi := b.hi.isLt
  simp only [dwSub, Dw.val, borrowBit, toNat_bitWord_decide, gt_iff_lt, BitVec.lt_def, BitVec.toNat_sub]
  split <;> omega

/-! ### The shifts: the bit that crosses the boundary falls into an empty place, so the OR of R67 and R68 is a sum -/

theorem shl_or_bitWord (v : Word) (b : Bool) : v <<< 1 ||| bitWord b = v <<< 1 + bitWord b := by
  refine (BitVec.add_eq_or_of_and_eq_zero _ _ (BitVec.eq_of_getLsbD_eq fun k hk => ?_)).symm
  rw [BitVec.getLsbD_and, BitVec.getLsbD_shiftLeft, getLsbD_bitWord]
  cases k <;> simp

theorem shr_or_bitWord (v : Word) (b : Bool) : v >>> 1 ||| bitWord b <<< 63 = v >>> 1 + bitWord b <<< 63 := by
  refine (BitVec.add_eq_or_of_and_eq_zero _ _ (BitVec.eq_of_getLsbD_eq fun k hk => ?_)).symm
  rw [BitVec.getLsbD_and, BitVec.getLsbD_ushiftRight, BitVec.getLsbD_shiftLeft, getLsbD_bitWord]
  rcases Nat.lt_or_ge k 63 with hlow | htop
  · simp [hlow]
  · rw [BitVec.getLsbD_of_ge _ _ (by omega), Bool.false_and, BitVec.getLsbD_zero]

theorem val_dwShl (a : Dw) : (dwShl a).val = 2 * a.val % 2 ^ 128 := by
  have halo := a.lo.isLt
  simp only [dwShl, Dw.val, shl_or_bitWord, BitVec.toNat_add, BitVec.toNat_shiftLeft, Nat.shiftLeft_eq,
    getLsbD_eq_decide_digit, toNat_bitWord_decide]
  split <;> omega

theorem val_dwShr (a : Dw) : (dwShr a).val = a.val / 2 := by
  have halo := a.lo.isLt
  simp only [dwShr, Dw.val, shr_or_bitWord, BitVec.toNat_add, BitVec.toNat_shiftLeft, BitVec.toNat_ushiftRight,
    Nat.shiftLeft_eq, Nat.shiftRight_eq_div_pow, getLsbD_eq_decide_digit, toNat_bitWord_decide]
  split <;> omega

theorem bitWord_shl_63 (b : Bool) : bitWord b <<< 63 = if b then 0x8000000000000000 else 0 := by
  cases b <;> rfl

/-! ### Bits and comparisons -/

theorem dwGetbit_eq_testBit (a : Dw) (i : Nat) : dwGetbit a i = a.val.testBit i := by
  rw [dwGetbit, Dw.testBit_val]
  split
  · rfl
  · split
    · rfl
    · exact (BitVec.getLsbD_of_ge _ _ (by omega)).symm

theorem dwGetbit_of_ge (a : Dw) {i : Nat} (h : 128 ≤ i) : dwGetbit a i = false := by
  rw [dwGetbit, if_neg (by omega), if_neg (by omega)]

/-- The bit as a word is the digit of the value. -/
theorem bitWord_dwGetbit (a : Dw) (i : Nat) : bitWord (dwGetbit a i) = BitVec.ofNat 64 (a.val / 2 ^ i % 2) := by
  refine BitVec.eq_of_toNat_eq ?_
  rw [toNat_bitWord, dwGetbit_eq_testBit, Nat.toNat_testBit, BitVec.toNat_ofNat]
  omega

theorem dwGt_eq_decide_halves (a b : Dw) : dwGt a b = decide (a.hi > b.hi ∨ (a.hi = b.hi ∧ a.lo > b.lo)) := by
  unfold dwGt
  split
  case isTrue hne => simp [hne]
  case isFalse heq => simp [not_not.mp heq]

theorem dwGt_eq_decide (a b : Dw) : dwGt a b = decide (a.val > b.val) := by
  simp only [dwGt_eq_decide_halves, gt_iff_lt, Dw.val_lt_iff, eq_comm]

theorem dwEq_eq_decide (a b : Dw) : dwEq a b = decide (a.val = b.val) := by
  simp only [dwEq, Dw.val_inj, Bool.decide_and]

/-! ### The laws of R73 -/

theorem val_lt_of_topBit_clear {a : Dw} (h : a.hi.getLsbD 63 = false) : a.val < 2 ^ 127 := by
  have hhi := a.hi.isLt
  have hlo := a.lo.isLt
  rw [getLsbD_eq_decide_digit, decide_eq_false_iff_not] at h
  unfold Dw.val
  omega

theorem dwSub_dwAdd_cancel (a b : Dw) : dwSub (dwAdd a b) b = a := by
  have hsub := val_dwSub (dwAdd a b) b
  rw [val_dwAdd] at hsub
  have hlt := a.val_lt
  exact Dw.eq_of_val_eq (by omega)

theorem dwShr_dwShl_cancel {a : Dw} (h : a.hi.getLsbD 63 = false) : dwShr (dwShl a) = a := by
  have hlt := val_lt_of_topBit_clear h
  refine Dw.eq_of_val_eq ?_
  rw [val_dwShr, val_dwShl]
  omega

/-- Settles O15: the inverses hold of the values modulo 2^128, and the order is that of the values. -/
theorem aluLaws : Obligations.AluLaws := by
  refine ⟨dwSub_dwAdd_cancel, fun a => dwShr_dwShl_cancel, fun a b => ⟨dwGt_eq_decide a b, dwEq_eq_decide a b⟩,
    fun a b => ?_, fun a b c => ?_⟩
  · simp only [dwGt_eq_decide, dwEq_eq_decide, decide_eq_true_eq, decide_eq_false_iff_not]
    omega
  · simp only [dwGt_eq_decide, decide_eq_true_eq]
    omega

end Sys2Proof.Machine
end

section
/-! The commands of the DoubleWidth ALU (R64 to R71): each completes with its unit function's word in W[rd], so what is
left of each claim is a fact about that word. -/

namespace Sys2Proof.Machine

/-- The end of a command that counts no Montgomery product (R31, R33). -/
theorem completes_complete (s : State) (rd : Reg) (v : Dw) : Completes s (s.complete rd v) rd 0 where
  others _ h := s.readW_complete_other v h
  counted := (Nat.mod_eq_of_lt s.mmcnt.isLt).symm
  rest := rfl

/-- A command that ends by writing `v` to W[rd], as a claim about any state that holds `v` there. -/
theorem exists_completes {i : Instr} {s : State} {rd : Reg} {v : Dw} {P : State → Prop}
    (hexec : exec i s = .next (s.complete rd v)) (hP : ∀ t : State, t.readW rd = v → P t) :
    ∃ t, exec i s = .next t ∧ Completes s t rd 0 ∧ P t :=
  ⟨_, hexec, completes_complete s rd v, hP _ (s.readW_complete_same rd v)⟩

/-- Settles O7: {0, lo} keeps of the value its remainder modulo 2^64. -/
theorem fromsingleResult : Obligations.FromsingleResult := by
  refine fun rd rs1 s => ⟨decode_word (i := .fromsingle rd rs1) rfl, exists_completes rfl fun t ht => ⟨ht, ?_⟩⟩
  rw [ht, dwFromsingle, val_zextLimb, Dw.val_mod_two_pow_64]
  rfl

/-- Settles O8: DW_ADD of the two operands; its carry is R65's comparison of the low halves. -/
theorem addResult : Obligations.AddResult := by
  refine fun rd rs1 rs2 s => ⟨decode_word (i := .add rd rs1 rs2) rfl, exists_completes rfl fun t ht => ?_⟩
  rw [ht, ← carryBit_eq_ite]
  exact ⟨rfl, rfl, val_dwAdd _ _⟩

/-- Settles O9: DW_SUB of the two operands; its borrow is R66's comparison of the low halves. -/
theorem subResult : Obligations.SubResult := by
  refine fun rd rs1 rs2 s => ⟨decode_word (i := .sub rd rs1 rs2) rfl, exists_completes rfl fun t ht => ?_⟩
  rw [ht, ← borrowBit_eq_ite]
  exact ⟨rfl, rfl, val_dwSub _ _⟩

/-- Settles O10: DW_SHL of the operand. -/
theorem shlResult : Obligations.ShlResult := by
  refine fun rd rs1 s => ⟨decode_word (i := .shl rd rs1) rfl, exists_completes rfl fun t ht => ?_⟩
  rw [ht]
  exact ⟨rfl, rfl, val_dwShl _⟩

/-- Settles O11: DW_SHR of the operand; the bit that leaves hi arrives at place 63 of lo. -/
theorem shrResult : Obligations.ShrResult := by
  refine fun rd rs1 s => ⟨decode_word (i := .shr rd rs1) rfl, exists_completes rfl fun t ht => ?_⟩
  rw [ht, ← bitWord_shl_63]
  exact ⟨rfl, rfl, val_dwShr _⟩

/-- Settles O12: DW_GETBIT is a digit of the value, and no digit of a 128-bit value stands at place 128 or above. -/
theorem getbitResult : Obligations.GetbitResult := by
  refine fun rd rs1 i s => ⟨fun hi => decode_word (i := .getbit rd rs1 i) (decide_eq_true hi),
    exists_completes rfl fun t ht => ?_⟩
  rw [ht]
  refine ⟨congrArg zextLimb (bitWord_dwGetbit _ i), fun hi => ?_⟩
  rw [dwGetbit_of_ge _ hi]
  rfl

/-- Settles O13: DW_GT compares the halves in their order, and so the values. -/
theorem gtResult : Obligations.GtResult := by
  refine fun rd rs1 rs2 s => ⟨decode_word (i := .gt rd rs1 rs2) rfl, exists_completes rfl fun t ht => ?_⟩
  rw [ht]
  refine ⟨congrArg zextLimb ?_, ?_⟩
  · rw [dwGt_eq_decide_halves, bitWord_decide]
  · rw [val_zextLimb, dwGt_eq_decide, toNat_bitWord_decide]

/-- Settles O14: DW_EQ compares both halves, and so the values. -/
theorem eqResult : Obligations.EqResult := by
  refine fun rd rs1 rs2 s => ⟨decode_word (i := .eq rd rs1 rs2) rfl, exists_completes rfl fun t ht => ?_⟩
  rw [ht]
  refine ⟨congrArg zextLimb ?_, ?_⟩
  · rw [dwEq, ← Bool.decide_and, bitWord_decide]
  · rw [val_zextLimb, dwEq_eq_decide, toNat_bitWord_decide]

end Sys2Proof.Machine
end

section
/-! The Reducer (R75 to R80) over the values of its operands: the doublings give D = M * 2^k with v < 2D, and each
subtraction stage leaves the remainder by its D, so the last one leaves the remainder by M. -/

namespace Sys2Proof

theorem Dw.val_eq_zero_iff {x : Dw} : x.val = 0 ↔ x = Dw.zero :=
  ⟨fun h => Dw.eq_of_val_eq h, fun h => h ▸ rfl⟩

end Sys2Proof

namespace Sys2Proof.Machine

/-! ### The tests and the subtraction over values -/

theorem dwGe_iff (a b : Dw) : dwGe a b = true ↔ b.val ≤ a.val := by
  simp only [dwGe, dwGt_eq_decide, dwEq_eq_decide, Bool.or_eq_true, decide_eq_true_eq]
  omega

theorem val_dwSub_of_le {a b : Dw} (h : b.val ≤ a.val) : (dwSub a b).val = a.val - b.val := by
  have hsub := val_dwSub a b
  have ha := a.val_lt
  omega

theorem dwGetbit_127_eq_decide (d : Dw) : dwGetbit d 127 = decide (2 ^ 127 ≤ d.val) := by
  have hd := d.val_lt
  rw [dwGetbit_eq_testBit, Nat.testBit_eq_decide_div_mod_eq, decide_eq_decide]
  omega

/-- The loop of R78 doubles on exactly while D is below v and the doubling loses no bit. -/
theorem doubling_continues_iff (v d : Dw) :
    (dwGt v d && !dwGetbit d 127) = true ↔ d.val < v.val ∧ d.val < 2 ^ 127 := by
  simp only [dwGt_eq_decide, dwGetbit_127_eq_decide, Bool.and_eq_true, Bool.not_eq_true', decide_eq_true_eq,
    decide_eq_false_iff_not, not_le, gt_iff_lt]

theorem val_dwShl_of_lt {d : Dw} (h : d.val < 2 ^ 127) : (dwShl d).val = 2 * d.val := by
  rw [val_dwShl]
  omega

/-! ### The doubling stage (R80 (c)) -/

theorem pos_of_eq_mul_two_pow {x m j : Nat} (hm : 0 < m) (h : x = m * 2 ^ j) : 0 < x :=
  h ▸ Nat.mul_pos hm (Nat.two_pow_pos j)

/-- The stage doubles at most `fuel` times, and no doubling loses a bit. -/
theorem exists_doublings (fuel : Nat) (v d : Dw) (k : Nat) :
    ∃ j ≤ fuel, (doublingStage fuel v d k).2 = k + j ∧ (doublingStage fuel v d k).1.val = d.val * 2 ^ j := by
  fun_induction doublingStage fuel v d k
  case case1 v d k => exact ⟨0, le_rfl, rfl, (Nat.mul_one _).symm⟩
  case case2 fuel v d k hcontinues ih =>
    obtain ⟨-, hroom⟩ := (doubling_continues_iff v d).mp hcontinues
    obtain ⟨j, hj, hcount, hval⟩ := ih
    refine ⟨j + 1, by omega, by omega, ?_⟩
    rw [hval, val_dwShl_of_lt hroom]
    ring
  case case3 fuel v d k _ => exact ⟨0, Nat.zero_le _, rfl, (Nat.mul_one _).symm⟩

/-- With fuel to reach bit 127 the stage ends only where the loop's own condition fails. -/
theorem doublingStage_exit {fuel : Nat} {v d : Dw} (k : Nat) (hfuel : 2 ^ 127 ≤ d.val * 2 ^ fuel) :
    v.val ≤ (doublingStage fuel v d k).1.val ∨ 2 ^ 127 ≤ (doublingStage fuel v d k).1.val := by
  fun_induction doublingStage fuel v d k
  case case1 v d k => exact .inr (by simpa using hfuel)
  case case2 fuel v d k hcontinues ih =>
    obtain ⟨-, hroom⟩ := (doubling_continues_iff v d).mp hcontinues
    refine ih ?_
    rw [val_dwShl_of_lt hroom]
    calc 2 ^ 127 ≤ d.val * 2 ^ (fuel + 1) := hfuel
      _ = 2 * d.val * 2 ^ fuel := by ring
  case case3 fuel v d k hstops =>
    rw [doubling_continues_iff] at hstops
    change v.val ≤ d.val ∨ 2 ^ 127 ≤ d.val
    omega

theorem doublings_le_127 (v m : Dw) : (doublingStage 127 v m 0).2 ≤ 127 := by
  obtain ⟨j, hj, hcount, -⟩ := exists_doublings 127 v m 0
  omega

theorem val_doublingStage (v m : Dw) :
    (doublingStage 127 v m 0).1.val = m.val * 2 ^ (doublingStage 127 v m 0).2 := by
  obtain ⟨j, -, hcount, hval⟩ := exists_doublings 127 v m 0
  rw [hcount, hval, Nat.zero_add]

/-- For a nonzero modulus the fuel of 127 suffices (log 14). -/
theorem doublingStage_127_exit {m : Dw} (hm : m.val ≠ 0) (v : Dw) :
    v.val ≤ (doublingStage 127 v m 0).1.val ∨ 2 ^ 127 ≤ (doublingStage 127 v m 0).1.val :=
  doublingStage_exit 0 (Nat.le_mul_of_pos_left _ (Nat.pos_of_ne_zero hm))

theorem lt_two_mul_doublingStage {m : Dw} (hm : m.val ≠ 0) (v : Dw) :
    v.val < 2 * (doublingStage 127 v m 0).1.val := by
  have hpos : 0 < (doublingStage 127 v m 0).1.val :=
    pos_of_eq_mul_two_pow (Nat.pos_of_ne_zero hm) (val_doublingStage v m)
  have hv := v.val_lt
  have hexit := doublingStage_127_exit hm v
  omega

/-! ### The subtraction stages (R80 (a), (b)) -/

theorem val_subtractWhile {fuel : Nat} {v d : Dw} (hd : 0 < d.val) (hfuel : v.val ≤ fuel) :
    (subtractWhile fuel v d).val = v.val % d.val := by
  fun_induction subtractWhile fuel v d
  case case1 v d => rw [Nat.le_zero.mp hfuel, Nat.zero_mod]
  case case2 fuel v d hge ih =>
    have hle := (dwGe_iff v d).mp hge
    have hsub := val_dwSub_of_le hle
    rw [ih hd (by omega), hsub, ← Nat.mod_eq_sub_mod hle]
  case case3 fuel v d hstops =>
    rw [dwGe_iff, not_le] at hstops
    exact (Nat.mod_eq_of_lt hstops).symm

/-- Below 2D the inner loop subtracts at most once. -/
theorem subtractWhile_eq_ite {v d : Dw} (hd : 0 < d.val) (hv : v.val < 2 * d.val) :
    subtractWhile v.val v d = if dwGe v d then dwSub v d else v := by
  apply Dw.eq_of_val_eq
  rw [val_subtractWhile hd le_rfl]
  split
  case isTrue hge =>
    have hle := (dwGe_iff v d).mp hge
    rw [val_dwSub_of_le hle, Nat.mod_eq_sub_mod hle, Nat.mod_eq_of_lt (by omega)]
  case isFalse hlt =>
    rw [dwGe_iff, not_le] at hlt
    exact Nat.mod_eq_of_lt hlt

theorem val_dwShr_of_eq_mul_two_pow {d : Dw} {m j : Nat} (h : d.val = m * 2 ^ (j + 1)) :
    (dwShr d).val = m * 2 ^ j := by
  rw [val_dwShr, h, pow_succ, ← Nat.mul_assoc, Nat.mul_div_cancel _ two_pos]

theorem val_subtractStages {m : Nat} (hm : 0 < m) {j : Nat} {v d : Dw} (hd : d.val = m * 2 ^ j) :
    (subtractStages j v d).val = v.val % m := by
  induction j generalizing v d with
  | zero => rw [subtractStages, val_subtractWhile (pos_of_eq_mul_two_pow hm hd) le_rfl, hd, pow_zero, Nat.mul_one]
  | succ j ih =>
    rw [subtractStages, ih (val_dwShr_of_eq_mul_two_pow hd), val_subtractWhile (pos_of_eq_mul_two_pow hm hd) le_rfl,
      hd, Nat.mod_mod_of_dvd _ (Nat.dvd_mul_right m _)]

/-- A stage that starts below 2D ends below D, which is twice the next stage's divisor. -/
theorem subtractStages_eq_once {m : Nat} (hm : 0 < m) {j : Nat} {v d : Dw} (hd : d.val = m * 2 ^ j)
    (hv : v.val < 2 * d.val) : subtractStages j v d = subtractOnceStages j v d := by
  induction j generalizing v d with
  | zero => rw [subtractStages, subtractOnceStages, subtractWhile_eq_ite (pos_of_eq_mul_two_pow hm hd) hv]
  | succ j ih =>
    have hpos : 0 < d.val := pos_of_eq_mul_two_pow hm hd
    have hhalf := val_dwShr_of_eq_mul_two_pow hd
    have hnext : (subtractWhile v.val v d).val < 2 * (dwShr d).val := by
      rw [val_subtractWhile hpos le_rfl]
      calc v.val % d.val < d.val := Nat.mod_lt _ hpos
        _ = 2 * (dwShr d).val := by rw [hd, hhalf]; ring
    rw [subtractStages, ih hhalf hnext, subtractWhile_eq_ite hpos hv, subtractOnceStages]

/-! ### REDUCE_FN and REDUCE (R75, R79, R80) -/

theorem val_reduceLoops {m : Dw} (hm : m.val ≠ 0) (v : Dw) : (reduceLoops v m).val = v.val % m.val :=
  val_subtractStages (Nat.pos_of_ne_zero hm) (val_doublingStage v m)

theorem val_reduceLoops_lt {m : Dw} (hm : m.val ≠ 0) (v : Dw) : (reduceLoops v m).val < m.val := by
  rw [val_reduceLoops hm]
  exact Nat.mod_lt _ (Nat.pos_of_ne_zero hm)

theorem reduceLoops_eq_once {m : Dw} (hm : m.val ≠ 0) (v : Dw) :
    reduceLoops v m = subtractOnceStages (doublingStage 127 v m 0).2 v (doublingStage 127 v m 0).1 :=
  subtractStages_eq_once (Nat.pos_of_ne_zero hm) (val_doublingStage v m) (lt_two_mul_doublingStage hm v)

theorem reduceLoops_idempotent {m : Dw} (hm : m.val ≠ 0) (v : Dw) :
    reduceLoops (reduceLoops v m) m = reduceLoops v m := by
  apply Dw.eq_of_val_eq
  rw [val_reduceLoops hm, val_reduceLoops hm, Nat.mod_mod]

theorem reduceFn_of_val_ne_zero {m : Dw} (hm : m.val ≠ 0) (v : Dw) : reduceFn v m = .ok (reduceLoops v m) :=
  reduceFn_of_ne_zero v (mt Dw.val_eq_zero_iff.mpr hm)

/-- Settles O16: past the check of the modulus REDUCE_FN is its two loops. -/
theorem reducerIsRemainder : Obligations.ReducerIsRemainder := fun v m hm =>
  ⟨reduceLoops v m, reduceFn_of_val_ne_zero hm v, val_reduceLoops hm v, val_reduceLoops_lt hm v⟩

/-- Settles O17: the doubling stage gives the bounds and D, the subtraction stages the result. -/
theorem reducerStages : Obligations.ReducerStages := fun v m hm =>
  ⟨val_reduceLoops_lt hm v, val_reduceLoops hm v, reduceLoops_eq_once hm v, doublings_le_127 v m,
    val_doublingStage v m, doublingStage_127_exit hm v, reduceLoops_idempotent hm v⟩

/-- Settles O18: REDUCE ends as REDUCE_FN does, with its word or its fault. -/
theorem reduceResult : Obligations.ReduceResult := by
  refine fun rd rs1 rs2 s => ⟨decode_word (i := .reduce rd rs1 rs2) rfl, fun hm => ?_, fun hm => ?_⟩
  · have hexec : exec (.reduce rd rs1 rs2) s = .next (s.complete rd (reduceLoops (s.readW rs1) (s.readW rs2))) := by
      rw [exec, execReduce, reduceFn_of_val_ne_zero hm]
    exact exists_completes hexec fun t ht => by rw [ht, val_reduceLoops hm]
  · have hexec : exec (.reduce rd rs1 rs2) s = .next (s.takeFault .redZero) := by
      rw [exec, execReduce, Dw.val_eq_zero_iff.mp hm, reduceFn_zero]
    exact ⟨_, hexec, rfl⟩

end Sys2Proof.Machine
end

section
/-! The Montgomery multiplier (R81 to R89) over the values of its operands: no sum of R83 wraps, so the loop in halves is
`natMontLoop`, and the accumulator stays below Y + N. -/

namespace Sys2Proof.Machine

/-! ### The sum S of R83 -/

/-- `nu` of R83 for the accumulator `t`. -/
def natMontNu (x y i t : Nat) : Nat := (t % 2 + x / 2 ^ i % 2 * (y % 2)) % 2

/-- S of R83 over natural numbers; its half is the next accumulator of `natMontLoop`. -/
def natMontSum (x y n i t : Nat) : Nat := t + x / 2 ^ i % 2 * y + natMontNu x y i t * n

theorem natMontLoop_succ (x y n i : Nat) :
    natMontLoop x y n (i + 1) = natMontSum x y n i (natMontLoop x y n i) / 2 := rfl

theorem natMontSum_lt {y n t : Nat} (x i : Nat) (ht : t < y + n) : natMontSum x y n i t < 2 * (y + n) := by
  have hxi : x / 2 ^ i % 2 * y ≤ y := mul_le_of_le_one_left (Nat.zero_le _) (by omega)
  have hnu : natMontNu x y i t * n ≤ n := mul_le_of_le_one_left (Nat.zero_le _) (by unfold natMontNu; omega)
  unfold natMontSum
  omega

theorem natMontLoop_lt {n : Nat} (hn : 0 < n) (x y : Nat) : ∀ i, natMontLoop x y n i < y + n
  | 0 => Nat.add_pos_right y hn
  | i + 1 => by
    have hsum := natMontSum_lt x i (natMontLoop_lt hn x y i)
    rw [natMontLoop_succ]
    omega

/-! ### The loop in halves (R83, R86) -/

theorem toNat_getLsbD (v : Word) (i : Nat) : (v.getLsbD i).toNat = v.toNat / 2 ^ i % 2 := Nat.toNat_testBit _ _

theorem val_zextLimb_ite (b : Bool) (v : Word) : (zextLimb (if b then v else 0)).val = b.toNat * v.toNat := by
  cases b <;> simp [val_zextLimb]

theorem toNat_xor_and (a b c : Bool) : (a ^^ (b && c)).toNat = (a.toNat + b.toNat * c.toNat) % 2 := by
  revert a b c
  decide

theorem toNat_montNu (x y : Word) (i : Nat) (t : Dw) :
    (dwGetbit t 0 ^^ (x.getLsbD i && y.getLsbD 0)).toNat = natMontNu x.toNat y.toNat i t.val := by
  rw [toNat_xor_and, dwGetbit_eq_testBit, Nat.toNat_testBit, toNat_getLsbD, toNat_getLsbD, pow_zero, Nat.div_one,
    Nat.div_one, natMontNu]

theorem val_montIteration {x y n : Word} {i : Nat} {t : Dw}
    (hsum : natMontSum x.toNat y.toNat n.toNat i t.val < 2 ^ 128) :
    (montIteration x y n i t).val = natMontSum x.toNat y.toNat n.toNat i t.val / 2 := by
  rw [montIteration, val_dwShr, val_dwAdd, val_dwAdd, val_zextLimb_ite, val_zextLimb_ite, toNat_montNu, toNat_getLsbD,
    Nat.mod_add_mod, ← natMontSum, Nat.mod_eq_of_lt hsum]

section
variable {n : Word} (hn : n ≠ 0) (x y : Word)
include hn

theorem toNat_pos_of_ne_zero : 0 < n.toNat := Nat.pos_of_ne_zero (BitVec.toNat_ne_iff_ne.mpr hn)

theorem val_montLoop (i : Nat) : (montLoop x y n i).val = natMontLoop x.toNat y.toNat n.toNat i := by
  induction i with
  | zero => exact Dw.val_eq_zero_iff.mpr rfl
  | succ i ih =>
    have hsum := natMontSum_lt x.toNat i (natMontLoop_lt (toNat_pos_of_ne_zero hn) x.toNat y.toNat i)
    have hy := y.isLt
    have hN := n.isLt
    rw [← ih] at hsum
    rw [montLoop, natMontLoop_succ, ← ih]
    exact val_montIteration (by omega)

theorem val_montLoop_lt (i : Nat) : (montLoop x y n i).val < y.toNat + n.toNat := by
  rw [val_montLoop hn]
  exact natMontLoop_lt (toNat_pos_of_ne_zero hn) _ _ i

theorem val_montLoop_succ (i : Nat) :
    (montLoop x y n (i + 1)).val = natMontSum x.toNat y.toNat n.toNat i (montLoop x y n i).val / 2 := by
  rw [val_montLoop hn, val_montLoop hn, natMontLoop_succ]

end

/-! ### The correction and the scaling (R84 steps 4 and 5) -/

/-- Step 4's test of R84 is `a >= b`. -/
theorem montCorrect_eq_ite (t : Dw) (n : Word) :
    montCorrect t n = if dwGe t (zextLimb n) then dwSub t (zextLimb n) else t := rfl

theorem val_montCorrect (t : Dw) (n : Word) :
    (montCorrect t n).val = if t.val ≥ n.toNat then t.val - n.toNat else t.val := by
  rw [montCorrect_eq_ite, ← val_zextLimb n]
  split
  case isTrue hge => rw [if_pos ((dwGe_iff _ _).mp hge), val_dwSub_of_le ((dwGe_iff _ _).mp hge)]
  case isFalse hlt => rw [if_neg (mt (dwGe_iff _ _).mpr hlt)]

/-- Step 4 brings T below the larger of Y and N (R86). -/
theorem val_montCorrect_lt_max {t : Dw} {y n : Word} (ht : t.val < y.toNat + n.toNat) :
    (montCorrect t n).val < max y.toNat n.toNat := by
  rw [val_montCorrect]
  split <;> omega

/-- The m single shifts are one shift by m (D42). -/
theorem val_shlTimes (m : Nat) (u : Dw) : (shlTimes m u).val = u.val * 2 ^ m % 2 ^ 128 := by
  induction m generalizing u with
  | zero => rw [shlTimes, pow_zero, Nat.mul_one, Nat.mod_eq_of_lt u.val_lt]
  | succ m ih => rw [shlTimes, ih, val_dwShl, Nat.mod_mul_mod, pow_succ' 2 m, ← Nat.mul_assoc, Nat.mul_comm 2]

theorem val_mul_two_pow_lt {t : Dw} {m : Nat} (ht : t.val < 2 ^ 64) (hm : m ≤ 64) : t.val * 2 ^ m < 2 ^ 128 :=
  calc t.val * 2 ^ m < 2 ^ 64 * 2 ^ m := Nat.mul_lt_mul_of_pos_right ht (Nat.two_pow_pos m)
    _ ≤ 2 ^ 64 * 2 ^ 64 := Nat.mul_le_mul_left _ (Nat.pow_le_pow_right two_pos hm)

/-- A value of one limb loses no bit in up to 64 shifts (R86). -/
theorem val_shlTimes_of_lt {t : Dw} {m : Nat} (ht : t.val < 2 ^ 64) (hm : m ≤ 64) :
    (shlTimes m t).val = t.val * 2 ^ m := by
  rw [val_shlTimes, Nat.mod_eq_of_lt (val_mul_two_pow_lt ht hm)]

theorem limb_of_val_lt {x : Dw} (h : x.val < 2 ^ 64) : x.hi = 0 ∧ x.lo.toNat = x.val := by
  have hhi : x.hi.toNat = 0 := by
    unfold Dw.val at h
    omega
  exact ⟨BitVec.eq_of_toNat_eq hhi, by rw [Dw.val, hhi, Nat.zero_mul, Nat.zero_add]⟩

/-! ### The bounds of R86 and the value of MM_FN (R81, R84) -/

section
variable {n : Word} (hn : n ≠ 0) (x y : Word)
include hn

theorem val_zextLimb_ne_zero : (zextLimb n).val ≠ 0 := by
  rw [val_zextLimb]
  exact BitVec.toNat_ne_iff_ne.mpr hn

theorem val_corrected_lt_max (i : Nat) : (montCorrect (montLoop x y n i) n).val < max y.toNat n.toNat :=
  val_montCorrect_lt_max (val_montLoop_lt hn x y i)

theorem val_corrected_lt_two_pow_64 (i : Nat) : (montCorrect (montLoop x y n i) n).val < 2 ^ 64 :=
  (val_corrected_lt_max hn x y i).trans (max_lt y.isLt n.isLt)

theorem mmFn_toNat_eq_val :
    (mmFn x y n).toNat =
      (reduceLoops (shlTimes (bitlen n) (montCorrect (montLoop x y n (bitlen n)) n)) (zextLimb n)).val := by
  have hlt := val_reduceLoops_lt (val_zextLimb_ne_zero hn)
    (shlTimes (bitlen n) (montCorrect (montLoop x y n (bitlen n)) n))
  rw [val_zextLimb] at hlt
  exact (limb_of_val_lt (hlt.trans n.isLt)).2

theorem toNat_mmFn : (mmFn x y n).toNat = natMm x.toNat y.toNat n.toNat (bitlen n) := by
  rw [mmFn_toNat_eq_val hn, val_reduceLoops (val_zextLimb_ne_zero hn), val_zextLimb,
    val_shlTimes_of_lt (val_corrected_lt_two_pow_64 hn x y _) (bitlen_le_64 n), val_montCorrect, val_montLoop hn, natMm]

end

/-- Settles O19: the accumulator stays below Y + N, and the correction brings it into one limb. -/
theorem montgomeryBounds : Obligations.MontgomeryBounds := by
  intro x y n hn
  have hT := val_montLoop_lt hn x y
  have hlimb := val_corrected_lt_two_pow_64 hn x y (bitlen n)
  have hm := bitlen_le_64 n
  have hbound : 2 * (y.toNat + n.toNat) < 2 ^ 66 := by
    have hy := y.isLt
    have hN := n.isLt
    omega
  exact ⟨fun i _ => ⟨hT i, natMontSum_lt _ i (hT i), hbound, val_montLoop_succ hn x y i⟩, hT _,
    val_corrected_lt_max hn x y _, (limb_of_val_lt hlimb).1, val_mul_two_pow_lt hlimb hm,
    val_shlTimes_of_lt hlimb hm, _, reduceFn_of_val_ne_zero (val_zextLimb_ne_zero hn) _⟩

/-- Settles O20: no bit is lost on the way, so the halves compute `natMm`, a remainder by N. -/
theorem montgomeryExact : Obligations.MontgomeryExact := by
  intro x y n hn
  rw [toNat_mmFn hn]
  exact ⟨rfl, Nat.mod_lt _ (toNat_pos_of_ne_zero hn)⟩

/-! ### Odd moduli (R87): no halving drops a bit -/

theorem natMontNu_eq_parity (x y i t : Nat) : natMontNu x y i t = (t + x / 2 ^ i % 2 * y) % 2 :=
  (Nat.mod_modEq t 2).add ((Nat.mod_modEq y 2).mul_left _)

section
variable {n : Nat} (hn : n % 2 = 1) (x y : Nat)
include hn

theorem two_dvd_natMontSum (i t : Nat) : 2 ∣ natMontSum x y n i t := by
  rw [natMontSum, natMontNu_eq_parity]
  generalize t + x / 2 ^ i % 2 * y = a
  rcases Nat.mod_two_eq_zero_or_one a with ha | ha <;> rw [ha] <;> omega

/-- R87's law of the loop: T * 2^i and (X mod 2^i) * Y differ by a multiple of N. -/
theorem natMontLoop_mul_two_pow_modEq (i : Nat) : natMontLoop x y n i * 2 ^ i ≡ x % 2 ^ i * y [MOD n] := by
  induction i with
  | zero => rw [natMontLoop, pow_zero, Nat.mod_one, Nat.zero_mul, Nat.zero_mul]
  | succ i ih =>
    generalize ht : natMontLoop x y n i = t at ih
    calc natMontLoop x y n (i + 1) * 2 ^ (i + 1)
        = natMontSum x y n i t * 2 ^ i := by
          rw [natMontLoop_succ, ht, pow_succ', ← Nat.mul_assoc, Nat.div_mul_cancel (two_dvd_natMontSum hn x y i t)]
      _ = t * 2 ^ i + 2 ^ i * (x / 2 ^ i % 2) * y + n * (natMontNu x y i t * 2 ^ i) := by
          rw [natMontSum]
          ring
      _ ≡ t * 2 ^ i + 2 ^ i * (x / 2 ^ i % 2) * y [MOD n] := Nat.add_mul_mod_self_left _ _ _
      _ ≡ x % 2 ^ i * y + 2 ^ i * (x / 2 ^ i % 2) * y [MOD n] := ih.add_right _
      _ = x % 2 ^ (i + 1) * y := by rw [Nat.mod_pow_succ, Nat.add_mul]

end

theorem corrected_modEq (t n : Nat) : (if t ≥ n then t - n else t) ≡ t [MOD n] := by
  split
  case isTrue hge => exact (Nat.mod_eq_sub_mod hge).symm
  case isFalse => rfl

theorem natMm_of_odd {n : Nat} (hn : n % 2 = 1) (x y m : Nat) : natMm x y n m = x % 2 ^ m * y % n :=
  ((corrected_modEq _ n).mul_right _).trans (natMontLoop_mul_two_pow_modEq hn x y m)

theorem ne_zero_of_odd {n : Word} (hn : n.toNat % 2 = 1) : n ≠ 0 := by
  rintro rfl
  cases hn

/-- Settles O21: the scaling by 2^m undoes the m exact halvings of the loop. -/
theorem montgomeryProductOddModulus : Obligations.MontgomeryProductOddModulus := by
  intro x y n hn
  rw [toNat_mmFn (ne_zero_of_odd hn), natMm_of_odd hn]
  exact ⟨rfl, fun hx => by rw [Nat.mod_eq_of_lt hx]⟩

end Sys2Proof.Machine
end

section
/-! How MONTMUL and MODEXP end (R85, R97), and what they do not read (R82, R85, R91): the loops look at bits of X and of
the exponent only below their counts. -/

namespace Sys2Proof.Machine

/-! ### The end of a command that counts products (R31, R33) -/

theorem completes_countProducts (s : State) (rd : Reg) (v : Dw) (k : Nat) :
    Completes s ((s.countProducts k).complete rd v) rd k where
  others i h := by rw [State.readW_complete_other _ v h, State.readW_countProducts]
  counted := by
    rw [State.complete_mmcnt, State.countProducts_mmcnt, BitVec.toNat_add, BitVec.toNat_ofNat, Nat.add_mod_mod]
  rest := rfl

theorem exec_montmul_of_modulus_ne_zero {s : State} (h : s.modulus ≠ 0) (rd rs1 rs2 : Reg) :
    exec (.montmul rd rs1 rs2) s =
      .next ((s.countProducts 1).complete rd (zextLimb (mmFn (s.limb rs1) (s.limb rs2) s.modulus))) := if_neg h

theorem exec_modexp_of_modulus_ne_zero {s : State} (h : s.modulus ≠ 0) (rd rs1 rs2 : Reg) :
    exec (.modexp rd rs1 rs2) s = .next ((s.countProducts (2 * s.expBitCount)).complete rd
      (zextLimb (modexpFn (s.limb rs1) (s.limb rs2) s.modulus s.expBitCount))) := if_neg h

/-- Settles O22: MONTMUL ends with MM_FN of the low limbs, or in the fault entry for MOD = 0. -/
theorem montmulResult : Obligations.MontmulResult := by
  refine fun rd rs1 rs2 s => ⟨decode_word (i := .montmul rd rs1 rs2) rfl, fun hn => ?_, fun hn => ?_⟩
  · refine ⟨_, exec_montmul_of_modulus_ne_zero hn rd rs1 rs2, completes_countProducts s rd _ 1, ?_⟩
    rw [State.readW_complete_same]
    exact ⟨rfl, toNat_mmFn hn _ _⟩
  · have hexec : exec (.montmul rd rs1 rs2) s = .next (s.takeFault .modZero) := if_pos hn
    exact ⟨_, hexec, rfl⟩

/-! ### The bits that are not read -/

theorem getLsbD_eq_of_mod_two_pow_eq {v v' : Word} {k : Nat} (h : v.toNat % 2 ^ k = v'.toNat % 2 ^ k) {i : Nat}
    (hi : i < k) : v.getLsbD i = v'.getLsbD i := by
  have hbit := congrArg (Nat.testBit · i) h
  simp only [Nat.testBit_mod_two_pow, hi, decide_true, Bool.true_and] at hbit
  exact hbit

theorem montLoop_congr {x x' : Word} {m : Nat} (h : ∀ i < m, x.getLsbD i = x'.getLsbD i) (y n : Word) :
    montLoop x y n m = montLoop x' y n m := by
  induction m with
  | zero => rfl
  | succ m ih =>
    rw [montLoop, montLoop, ih fun i hi => h i (Nat.lt_succ_of_lt hi), montIteration, montIteration,
      h m (Nat.lt_succ_self m)]

theorem mmFn_congr {x x' n : Word} (h : x.toNat % 2 ^ bitlen n = x'.toNat % 2 ^ bitlen n) (y : Word) :
    mmFn x y n = mmFn x' y n := by
  rw [mmFn, mmFn, montLoop_congr fun i hi => getLsbD_eq_of_mod_two_pow_eq h hi]

theorem expLoop_congr {e e' : Word} {k : Nat} (h : ∀ j < k, e.getLsbD j = e'.getLsbD j) (msg n : Word) :
    expLoop msg e n k = expLoop msg e' n k := by
  induction k with
  | zero => rfl
  | succ k ih =>
    rw [expLoop, expLoop, ih fun j hj => h j (Nat.lt_succ_of_lt hj), expIteration, expIteration,
      h k (Nat.lt_succ_self k)]

theorem modexpFn_congr {e e' : Word} {k : Nat} (h : e.toNat % 2 ^ k = e'.toNat % 2 ^ k) (msg n : Word) :
    modexpFn msg e n k = modexpFn msg e' n k := by
  rw [modexpFn, modexpFn, expLoop_congr fun j hj => getLsbD_eq_of_mod_two_pow_eq h hj]

/-- Settles O28: both commands write a function of MOD, EXPBITS, one whole limb and the other limb's low bits. -/
theorem unreadOperandBits : Obligations.UnreadOperandBits := by
  intro rd rs1 rs2 s s' hn hmod
  have hn' : s'.modulus ≠ 0 := hmod ▸ hn
  refine ⟨fun hx hy => ⟨_, _, exec_montmul_of_modulus_ne_zero hn rd rs1 rs2,
      exec_montmul_of_modulus_ne_zero hn' rd rs1 rs2, ?_⟩,
    fun hbits hmsg he => ⟨_, _, exec_modexp_of_modulus_ne_zero hn rd rs1 rs2,
      exec_modexp_of_modulus_ne_zero hn' rd rs1 rs2, ?_⟩⟩
  · simp only [State.readW_complete_same, State.limb, hmod, hy, mmFn_congr hx]
  · simp only [State.readW_complete_same, State.limb, State.expBitCount, hmod, hbits, hmsg, modexpFn_congr he]

end Sys2Proof.Machine
end

section
/-! MODEXP (R90 to R101) for every modulus but 0: one iteration of the datapath, the value over natural numbers, the end
of the command, the empty exponent and the range of the result. -/

namespace Sys2Proof.Machine

/-! ### One iteration of the datapath (R93) -/

theorem expLoop_succ_t (msg e n : Word) (j : Nat) :
    (expLoop msg e n (j + 1)).t = mmFn (expLoop msg e n j).t (expLoop msg e n j).t n := by
  rw [expLoop, expIteration]
  split <;> rfl

theorem modexpFn_succ (msg e n : Word) (j : Nat) :
    modexpFn msg e n (j + 1) =
      if e.getLsbD j then mmFn (modexpFn msg e n j) (expLoop msg e n j).t n else modexpFn msg e n j := by
  rw [modexpFn, expLoop, expIteration]
  split <;> rfl

theorem getLsbD_eq_true_iff (v : Word) (i : Nat) : v.getLsbD i = true ↔ v.toNat / 2 ^ i % 2 = 1 := by
  rw [← toNat_getLsbD, Bool.toNat_eq_one]

theorem modexpFn_succ_eq_ite_div (msg e n : Word) (j : Nat) :
    modexpFn msg e n (j + 1) =
      if e.toNat / 2 ^ j % 2 = 1 then mmFn (modexpFn msg e n j) (expLoop msg e n j).t n else modexpFn msg e n j := by
  simp only [modexpFn_succ, getLsbD_eq_true_iff]

/-! ### The decoy (R35, R101) -/

/-- No iteration reads r_fake, so the base and the result alone pass through the same values. -/
theorem expLoopNoDecoy_eq (msg e n : Word) (k : Nat) :
    expLoopNoDecoy msg e n k = ((expLoop msg e n k).t, modexpFn msg e n k) := by
  induction k with
  | zero => rfl
  | succ j ih => rw [expLoopNoDecoy, ih, expLoop_succ_t, modexpFn_succ]

/-- Settles O27: the result is one of the two values that the loop without the decoy carries. -/
theorem decoyNonInterference : Obligations.DecoyNonInterference := fun msg e n k => by rw [expLoopNoDecoy_eq]

/-! ### The exact value and the end of the command (R94, R97) -/

theorem natExpLoop_eq {n : Word} (hn : n ≠ 0) (msg e : Word) (k : Nat) :
    natExpLoop msg.toNat e.toNat n.toNat (bitlen n) k =
      ((expLoop msg e n k).t.toNat, (modexpFn msg e n k).toNat) := by
  induction k with
  | zero => rfl
  | succ j ih =>
    rw [natExpLoop, ih, expLoop_succ_t, modexpFn_succ_eq_ite_div, toNat_mmFn hn, apply_ite BitVec.toNat, toNat_mmFn hn]

/-- Settles O23: MODEXP ends with MODEXP_FN of the low limbs, or in the fault entry for MOD = 0. -/
theorem modexpResult : Obligations.ModexpResult := by
  refine fun rd rs1 rs2 s => ⟨decode_word (i := .modexp rd rs1 rs2) rfl, fun hn => ?_, fun hn => ?_⟩
  · refine ⟨_, exec_modexp_of_modulus_ne_zero hn rd rs1 rs2, completes_countProducts s rd _ _, ?_⟩
    rw [State.readW_complete_same, natExpLoop_eq hn]
    exact ⟨rfl, rfl⟩
  · have hexec : exec (.modexp rd rs1 rs2) s = .next (s.takeFault .modZero) := if_pos hn
    exact ⟨_, hexec, rfl⟩

/-! ### The empty exponent (R100) -/

theorem modexpFn_zero_exponent (msg n : Word) (k : Nat) : modexpFn msg 0 n k = 1 := by
  induction k with
  | zero => rfl
  | succ j ih => rw [modexpFn_succ, if_neg (by simp), ih]

/-- With no bit set below K the exponent is read as 0. -/
theorem modexpFn_of_empty {e : Word} {k : Nat} (he : e.toNat % 2 ^ k = 0) (msg n : Word) : modexpFn msg e n k = 1 := by
  rw [modexpFn_congr (e' := 0) (by rw [he]; exact (Nat.zero_mod _).symm), modexpFn_zero_exponent]

/-- Settles O26: the result stays at its initial 1, which is a residue only from N = 2 on. -/
theorem modexpEmptyExponent : Obligations.ModexpEmptyExponent := by
  intro msg e n k _ _ he
  rw [modexpFn_of_empty he]
  refine ⟨rfl, fun hone => ?_, fun htwo => ?_⟩
  · rw [hone]
    exact Nat.lt_irrefl 1
  · exact (Nat.mod_eq_of_lt htwo).symm

/-! ### The range of the result (R81) -/

theorem toNat_mmFn_lt {n : Word} (hn : n ≠ 0) (x y : Word) : (mmFn x y n).toNat < n.toNat :=
  (montgomeryExact x y n hn).2

/-- From the first bit set on, the result is a product. -/
theorem modexpFn_lt {n : Word} (hn : n ≠ 0) (msg e : Word) {k : Nat} (he : e.toNat % 2 ^ k ≠ 0) :
    (modexpFn msg e n k).toNat < n.toNat := by
  induction k with
  | zero => exact absurd (Nat.mod_one _) he
  | succ j ih =>
    rw [modexpFn_succ_eq_ite_div]
    split
    case isTrue => exact toNat_mmFn_lt hn _ _
    case isFalse hbit =>
      refine ih fun hlow => he ?_
      rw [Nat.mod_pow_succ, hlow, Nat.mod_two_ne_one.mp hbit, Nat.mul_zero]

/-- MM_FN reads the whole of the result when it multiplies it. -/
theorem modexpFn_lt_two_pow_bitlen {n : Word} (hn : n ≠ 0) (msg e : Word) (k : Nat) :
    (modexpFn msg e n k).toNat < 2 ^ bitlen n := by
  by_cases he : e.toNat % 2 ^ k = 0
  · rw [modexpFn_of_empty he]
    exact Nat.one_lt_two_pow (bitlen_pos hn).ne'
  · exact (modexpFn_lt hn msg e he).trans (toNat_lt_two_pow_bitlen n)

end Sys2Proof.Machine
end

section
/-! MODEXP for odd N (R98, R99): every MM_FN is a true modular product, so the result is a product of bases, and the
bases are powers of the message, or of its truncated square. -/

namespace Sys2Proof.Machine

/-! ### The result is the product of the bases whose bit is set -/

section
variable {n : Word} (hn : n.toNat % 2 = 1) (msg e : Word)
include hn

theorem toNat_mmFn_of_odd (x y : Word) : (mmFn x y n).toNat = x.toNat % 2 ^ bitlen n * y.toNat % n.toNat :=
  (montgomeryProductOddModulus x y n hn).1

theorem toNat_mmFn_of_lt {x : Word} (hx : x.toNat < 2 ^ bitlen n) (y : Word) :
    (mmFn x y n).toNat = x.toNat * y.toNat % n.toNat :=
  (montgomeryProductOddModulus x y n hn).2 hx

/-- Only the first square can meet a base of more than m bits. -/
theorem toNat_expLoop_succ_t (j : Nat) :
    (expLoop msg e n (j + 1)).t.toNat = (msg.toNat % 2 ^ bitlen n * msg.toNat) ^ 2 ^ j % n.toNat := by
  induction j with
  | zero => rw [expLoop_succ_t, toNat_mmFn_of_odd hn, pow_zero, pow_one, expLoop]
  | succ j ih =>
    have ht : (expLoop msg e n (j + 1)).t.toNat < 2 ^ bitlen n := by
      rw [expLoop_succ_t]
      exact (toNat_mmFn_lt (ne_zero_of_odd hn) _ _).trans (toNat_lt_two_pow_bitlen n)
    rw [expLoop_succ_t, toNat_mmFn_of_lt hn ht, ih, ← Nat.mul_mod, ← pow_add, ← two_mul, ← pow_succ']

/-- The true updates of R93, one for every bit set. -/
theorem modexpFn_modEq_prod (k : Nat) :
    (modexpFn msg e n k).toNat ≡
      ∏ j ∈ Finset.range k, (expLoop msg e n j).t.toNat ^ (e.toNat / 2 ^ j % 2) [MOD n.toNat] := by
  induction k with
  | zero => rfl
  | succ j ih =>
    rw [modexpFn_succ_eq_ite_div, Finset.prod_range_succ]
    split
    case isTrue hbit =>
      rw [toNat_mmFn_of_lt hn (modexpFn_lt_two_pow_bitlen (ne_zero_of_odd hn) msg e j), hbit, pow_one]
      exact (Nat.mod_modEq _ _).trans (ih.mul_right _)
    case isFalse hbit =>
      rwa [Nat.mod_two_ne_one.mp hbit, pow_zero, Nat.mul_one]

end

/-! ### The modular power (R98) -/

theorem prod_pow_bits (a e k : Nat) : ∏ j ∈ Finset.range k, (a ^ 2 ^ j) ^ (e / 2 ^ j % 2) = a ^ (e % 2 ^ k) := by
  induction k with
  | zero => rw [pow_zero, Nat.mod_one, pow_zero, Finset.range_zero, Finset.prod_empty]
  | succ k ih => rw [Finset.prod_range_succ, ih, ← pow_mul, ← pow_add, ← Nat.mod_pow_succ]

section
variable {n msg : Word} (hn : n.toNat % 2 = 1) (hmsg : msg.toNat < 2 ^ bitlen n)
include hn hmsg

theorem expLoop_t_modEq_pow (e : Word) : ∀ j, (expLoop msg e n j).t.toNat ≡ msg.toNat ^ 2 ^ j [MOD n.toNat]
  | 0 => by rw [pow_zero, pow_one, expLoop]
  | j + 1 => by
    rw [toNat_expLoop_succ_t hn, Nat.mod_eq_of_lt hmsg, pow_succ' 2 j, pow_mul, pow_two]
    exact Nat.mod_modEq _ _

theorem toNat_modexpFn_of_lt (hthree : 3 ≤ n.toNat) (e : Word) (k : Nat) :
    (modexpFn msg e n k).toNat = msg.toNat ^ (e.toNat % 2 ^ k) % n.toNat := by
  have hlt : (modexpFn msg e n k).toNat < n.toNat := by
    by_cases he : e.toNat % 2 ^ k = 0
    · rw [modexpFn_of_empty he]
      exact Nat.lt_of_lt_of_le (by decide) hthree
    · exact modexpFn_lt (ne_zero_of_odd hn) msg e he
  rw [← Nat.mod_eq_of_lt hlt, ← prod_pow_bits]
  exact (modexpFn_modEq_prod hn msg e k).trans
    (Nat.ModEq.prod fun j _ => (expLoop_t_modEq_pow hn hmsg e j).pow _)

end

/-- Settles O24: every base is a power of the message, and the bits of the exponent gather them into one. -/
theorem modexpIsPower : Obligations.ModexpIsPower := by
  refine ⟨fun msg e n k hn hthree hmsg _ _ => toNat_modexpFn_of_lt hn hmsg hthree e k,
    fun msg e d n hn hthree hmsg hkeys => BitVec.eq_of_toNat_eq ?_⟩
  have hfit : ∀ {v : Nat}, v < n.toNat → v < 2 ^ bitlen n := (·.trans (toNat_lt_two_pow_bitlen n))
  have hcipher := toNat_modexpFn_of_lt hn (hfit hmsg) hthree e 64
  have hresidue := Nat.mod_lt (msg.toNat ^ (e.toNat % 2 ^ 64)) (toNat_pos_of_ne_zero (ne_zero_of_odd hn))
  rw [toNat_modexpFn_of_lt hn (hcipher ▸ hfit hresidue) hthree, hcipher, Nat.mod_eq_of_lt e.isLt,
    Nat.mod_eq_of_lt d.isLt, ← Nat.pow_mod, ← pow_mul]
  exact hkeys _ hmsg

/-! ### Messages of m bits or more (R99) -/

theorem mod_two_pow_div_mod_two (e : Nat) {j k : Nat} (hj : j < k) : e % 2 ^ k / 2 ^ j % 2 = e / 2 ^ j % 2 := by
  rw [← Nat.toNat_testBit, Nat.testBit_mod_two_pow, decide_eq_true hj, Bool.true_and, Nat.toNat_testBit]

/-- The product of R99, over the bits set above bit 0. -/
theorem prod_expLoop_t_eq_prod_filter {n : Word} (hn : n.toNat % 2 = 1) (msg e : Word) {k : Nat} (hk : 0 < k) :
    ∏ j ∈ Finset.Ico 1 k, (expLoop msg e n j).t.toNat ^ (e.toNat / 2 ^ j % 2) =
      ∏ j ∈ (Finset.Icc 1 (k - 1)).filter (fun j => e.toNat % 2 ^ k / 2 ^ j % 2 = 1),
        (msg.toNat % 2 ^ bitlen n * msg.toNat % n.toNat) ^ 2 ^ (j - 1) % n.toNat := by
  rw [Finset.Icc_sub_one_right_eq_Ico_of_not_isMin hk.not_isMin, Finset.prod_filter]
  refine Finset.prod_congr rfl fun j hj => ?_
  obtain ⟨hpos, hlt⟩ := Finset.mem_Ico.mp hj
  obtain ⟨i, rfl⟩ := Nat.exists_eq_add_of_le' hpos
  rw [mod_two_pow_div_mod_two _ hlt, toNat_expLoop_succ_t hn, Nat.add_sub_cancel, ← Nat.pow_mod]
  split
  case isTrue hbit => rw [hbit, pow_one]
  case isFalse hbit => rw [Nat.mod_two_ne_one.mp hbit, pow_zero]

/-- Settles O25: after the first square, which drops the message's high bits, every base is a true power. -/
theorem modexpOutOfRangeMessage : Obligations.ModexpOutOfRangeMessage := by
  refine ⟨by decide +kernel, fun msg e n k hn _ hk _ => ⟨fun he => modexpFn_of_empty he msg n, fun he => ?_⟩⟩
  have hbase : (expLoop msg e n 0).t.toNat ^ (e.toNat / 2 ^ 0 % 2) = msg.toNat ^ (e.toNat % 2 ^ k % 2) := by
    rw [← mod_two_pow_div_mod_two e.toNat hk, pow_zero, Nat.div_one, expLoop]
  calc (modexpFn msg e n k).toNat
      = (modexpFn msg e n k).toNat % n.toNat := (Nat.mod_eq_of_lt (modexpFn_lt (ne_zero_of_odd hn) msg e he)).symm
    _ = (∏ j ∈ Finset.range k, (expLoop msg e n j).t.toNat ^ (e.toNat / 2 ^ j % 2)) % n.toNat :=
        modexpFn_modEq_prod hn msg e k
    _ = _ := by rw [Finset.prod_range_eq_mul_Ico _ hk, hbase, prod_expLoop_t_eq_prod_filter hn msg e hk]

end Sys2Proof.Machine
end

section
/-! The exceptions of the DWC: how every command ends (R33, R103, R105), the bus error (R39, R111), and the return from a
fault (R108). -/

namespace Sys2Proof

/-! ### The destination of a decoded command (R54) -/

theorem eq_of_checkReserved_eq_ok {c : Word} {used : BitVec 32} {i j : Instr} (h : checkReserved c used i = .ok j) :
    i = j := by
  rcases Machine.checkReserved_cases c used i with ⟨hok, -, -⟩ | ⟨herror, -⟩
  · exact Except.ok.inj (hok.symm.trans h)
  · cases herror.symm.trans h

/-- Every row of the map takes its destination from the same place of the word. -/
theorem rd_of_decode_eq_ok {c : Word} {i : Instr} (h : decode c = .ok i) : i.rd = rdField c := by
  unfold decode at h
  split at h
  case h_12 => cases h
  all_goals
    obtain rfl := eq_of_checkReserved_eq_ok h
    rfl

end Sys2Proof

namespace Sys2Proof.Machine

/-! ### How a command ends (R33, R103, R105) -/

theorem faultCode_range (f : CmdFault) : 1 ≤ (faultCode f).toNat ∧ (faultCode f).toNat ≤ 4 := by
  cases f <;> decide

theorem faulted_takeFault (s : State) (f : CmdFault) : Faulted s (s.takeFault f) (faultCode f) := rfl

theorem Completes.busy_eq_false {s t : State} {rd : Reg} {products : Nat} (h : Completes s t rd products) :
    t.busy = false := by
  rw [h.rest]

/-- Every command ends in one step, completed or in the fault entry. -/
theorem exec_completes_or_faults (i : Instr) (s : State) :
    (∃ t products, exec i s = .next t ∧ Completes s t i.rd products) ∨ ∃ f, exec i s = .next (s.takeFault f) := by
  rcases exec_cases i s with ⟨v, h⟩ | ⟨n, v, -, h⟩ | hfault
  · exact .inl ⟨_, 0, h, completes_complete s i.rd v⟩
  · exact .inl ⟨_, n, h, completes_countProducts s i.rd v n⟩
  · exact .inr hfault

/-- The same of the engine step, where a word that does not decode ends in the fault entry too. -/
theorem engineStep_completes_or_faults {s : State} (hbusy : s.busy = true) :
    (∃ t i products, decode s.pending = .ok i ∧ engineStep s = .next t ∧
      Completes s t (rdField s.pending) products) ∨
    ∃ f, engineStep s = .next (s.takeFault f) := by
  cases hdecode : decode s.pending with
  | error f => exact .inr ⟨f, engineStep_decodeFault hbusy hdecode⟩
  | ok i =>
    rw [engineStep_runs hbusy hdecode, ← rd_of_decode_eq_ok hdecode]
    rcases exec_completes_or_faults i s with ⟨t, products, hexec, hcompletes⟩ | hfault
    · exact .inl ⟨t, i, products, rfl, hexec, hcompletes⟩
    · exact .inr hfault

/-- Settles O30: of the two ends of the engine step, a completion writes at most W[rd] and MMCNT, and the fault entry
records one of the four codes. -/
theorem commandCompletesOrFaults : Obligations.CommandCompletesOrFaults := by
  intro s hbusy
  rcases engineStep_completes_or_faults hbusy with ⟨t, i, products, hdecode, hstep, hcompletes⟩ | ⟨f, hstep⟩
  · exact ⟨t, hstep, hcompletes.busy_eq_false, .inl ⟨i, hdecode, hcompletes.others, hcompletes.rest⟩⟩
  · obtain ⟨hlow, hhigh⟩ := faultCode_range f
    exact ⟨_, hstep, rfl, .inr ⟨faultCode f, hlow, hhigh, faulted_takeFault s f⟩⟩

/-! ### The bus error (R39, R111) -/

theorem windowOffset_eq_none {addr n : Nat}
    (h : n ≠ 8 ∨ addr < Config.base ∨ (addr - Config.base) % 8 ≠ 0 ∨ Config.base + 0x200 ≤ addr) :
    windowOffset addr n = none := by
  rcases windowOffset_cases addr n with ⟨off, -, haddr, hn, h8, hlt⟩ | ⟨hnone, -⟩
  · omega
  · exact hnone

theorem State.serve_read_outside (s : State) {addr n : Nat} (h : windowOffset addr n = none) :
    s.serve (.read addr n) = s.respond (.busError Config.hostBusError) := by
  simp [State.serve, h]

theorem State.serve_write_outside (s : State) {addr : Nat} {data : List Byte}
    (h : windowOffset addr data.length = none) :
    s.serve (.write addr data) = s.respond (.busError Config.hostBusError) := by
  simp [State.serve, h]

/-- Settles O37: such an access reaches no offset of the window, so the answer is all that changes. -/
theorem badAccessIsBusError : Obligations.BadAccessIsBusError := by
  intro s a addr n rest ⟨hreset, hinputs⟩ haccess hbad
  have hnone := windowOffset_eq_none hbad
  rw [step_access hinputs hreset]
  rcases haccess with rfl | ⟨data, rfl, rfl⟩
  · rw [State.serve_read_outside _ hnone]
    rfl
  · rw [State.serve_write_outside _ hnone]
    rfl

/-! ### The return from a fault (R108) -/

theorem State.clearStatus_of_errBit (s : State) {v : Word} (h : v.getLsbD 2 = true) :
    s.clearStatus v =
      { s with err := false, errcode := 0, done := s.done && !v.getLsbD 1, ovr := s.ovr && !v.getLsbD 3 } := by
  simp [State.clearStatus, h]

theorem step_writeAt_cmd_of_ready {s : State} {c : Word} {rest : List Input} (h : s.HostDoes (writeAt 0x018 c) rest)
    (hidle : s.busy = false) (hclean : s.err = false) :
    step s = .next (((s.withInputs rest).accept c).respond .written) :=
  (commandAcceptance.1 s c rest h).1 ⟨hidle, hclean⟩

/-- Settles O47: the STATUS write leaves the block neither busy nor in error, so the CMD write is accepted (R26). -/
theorem returnFromFault : Obligations.ReturnFromFault := by
  intro s v c rest hreset hidle herrBit hinputs
  have hstep := step_writeAt_unlocked ⟨hreset, hinputs⟩ rfl rfl (by decide)
  rw [show winRegAt 0x008 = .status from rfl, State.writeReg, State.clearStatus_of_errBit _ herrBit] at hstep
  exact ⟨_, hstep, rfl, step_writeAt_cmd_of_ready ⟨hreset, rfl⟩ hidle rfl⟩

end Sys2Proof.Machine
end

section
/-! Reset and hazards of the DWC: the reset values (R118), and the operand snapshot of a waiting command (R123). -/

namespace Sys2Proof.Machine

/-! ### The reset values (R118) -/

theorem State.readW_reset (i : Reg) : State.reset.readW i = Dw.zero := Vector.getElem_replicate i.isLt

theorem bitlen_zero : bitlen 0 = 0 := if_pos rfl

/-- Settles O50: MLEN follows MOD, whose reset value has no digits; the other items are fields of the reset state. -/
theorem resetValues : Obligations.ResetValues :=
  ⟨State.readW_reset, rfl, rfl, rfl, rfl, rfl, rfl, rfl, rfl, rfl, bitlen_zero, rfl, rfl, rfl, rfl⟩

/-! ### The operand snapshot (R123) -/

/-- From `s` to `t` nothing that a waiting command depends on has changed: its operands, the configuration, the product
counter, the latched word, and that it waits. -/
structure State.KeepsSnapshot (s t : State) : Prop where
  w : t.w = s.w
  modulus : t.modulus = s.modulus
  expbits : t.expbits = s.expbits
  mmcnt : t.mmcnt = s.mmcnt
  pending : t.pending = s.pending
  busy : t.busy = s.busy

theorem State.keepsSnapshot_respond (s : State) (r : Response) : s.KeepsSnapshot (s.respond r) :=
  ⟨rfl, rfl, rfl, rfl, rfl, rfl⟩

theorem State.keepsSnapshot_dropWrite (s : State) : s.KeepsSnapshot s.dropWrite :=
  ⟨rfl, rfl, rfl, rfl, rfl, rfl⟩

theorem State.KeepsSnapshot.respond {s t : State} (h : s.KeepsSnapshot t) (r : Response) :
    s.KeepsSnapshot (t.respond r) :=
  ⟨h.w, h.modulus, h.expbits, h.mmcnt, h.pending, h.busy⟩

theorem State.keepsSnapshot_hostRead (s : State) (r : WinReg) : s.KeepsSnapshot (s.hostRead r) := by
  rw [State.hostRead_frame]
  exact ⟨rfl, rfl, rfl, rfl, rfl, rfl⟩

/-- The registers that BUSY does not lock hold no part of the snapshot. -/
theorem State.keepsSnapshot_writeReg (s : State) {r : WinReg} (hr : r.lockedWhileBusy = false) (v : Word) :
    s.KeepsSnapshot (s.writeReg r v) := by
  cases r with
  | cmd | modulus | expbits | mmcnt | wLo | wHi => cases hr
  | id | status | ctrl | errcmd | mlen | reserved => exact ⟨rfl, rfl, rfl, rfl, rfl, rfl⟩

/-- The registers that hold a part of it are those whose writes a busy block drops (R46). -/
theorem State.keepsSnapshot_hostWrite {s : State} (hbusy : s.busy = true) (r : WinReg) (v : Word) :
    s.KeepsSnapshot (s.hostWrite r v) := by
  cases hr : r.lockedWhileBusy with
  | true =>
    rw [State.hostWrite_of_locked hbusy hr]
    exact s.keepsSnapshot_dropWrite
  | false =>
    rw [State.hostWrite_of_unlocked s hr]
    exact s.keepsSnapshot_writeReg hr v

theorem State.keepsSnapshot_serve {s : State} (hbusy : s.busy = true) (a : HostAccess) :
    s.KeepsSnapshot (s.serve a) := by
  rcases s.serve_cases a with hserve | ⟨off, -, -, -, hserve⟩ | ⟨off, data, -, -, -, -, hserve⟩ <;> rw [hserve]
  · exact s.keepsSnapshot_respond _
  · exact s.keepsSnapshot_hostRead _
  · exact (State.keepsSnapshot_hostWrite hbusy _ _).respond _

/-- Settles O46: the step serves the access, and while BUSY = 1 no access changes the snapshot. -/
theorem operandSnapshot : Obligations.OperandSnapshot := by
  intro s a rest ⟨hreset, hinputs⟩ hbusy
  have hwaiting : (s.withInputs rest).busy = true := hbusy
  obtain ⟨hw, hmod, hexp, hmmcnt, hpending, hkept⟩ := State.keepsSnapshot_serve hwaiting a
  exact ⟨_, step_access hinputs hreset, hw, hmod, hexp, hmmcnt, hpending, hkept.trans hwaiting⟩

end Sys2Proof.Machine
end

section
/-! Decoder and encoder agree (R53 to R61). The encoder's word is read as a number, the sum of the command's fields in
their places; a word that decodes is that sum too, because the reserved check leaves it no other bit. -/

namespace Sys2Proof

/-! ### The encoder's word as a sum of fields (R54) -/

/-- A part of a word that lies above everything below it: its OR is a sum. -/
theorem toNat_shiftLeft_or {n : Nat} (hn : n ≤ 64) (x : Word) {v : Word} (hv : v.toNat < 2 ^ n) :
    (x <<< n ||| v).toNat = 2 ^ n * x.toNat % 2 ^ 64 + v.toNat := by
  have hplaced : 2 ^ n * x.toNat % 2 ^ 64 = 2 ^ n * (x.toNat % 2 ^ (64 - n)) := by
    rw [← Nat.mul_mod_mul_left, ← pow_add, Nat.add_sub_cancel' hn]
  rw [BitVec.toNat_or, BitVec.toNat_shiftLeft, Nat.shiftLeft_eq, Nat.mul_comm x.toNat, hplaced,
    ← Nat.two_pow_add_eq_or_of_lt hv]

theorem toNat_regBits_or {n : Nat} (hn : n ≤ 60) (r : Reg) {v : Word} (hv : v.toNat < 2 ^ n) :
    (regBits r n ||| v).toNat = 2 ^ n * r.val + v.toNat := by
  have hr := r.isLt
  have hplace : 2 ^ n * r.val < 2 ^ 64 :=
    calc 2 ^ n * r.val ≤ 2 ^ 60 * r.val := Nat.mul_le_mul_right _ (Nat.pow_le_pow_right two_pos hn)
      _ < 2 ^ 64 := by omega
  rw [regBits, toNat_shiftLeft_or (hn.trans (by decide)) _ hv, BitVec.toNat_ofNat, Nat.mul_mod_mod,
    Nat.mod_eq_of_lt hplace]

theorem toNat_encodeRdRs1Rs2 (op : BitVec 8) (rd rs1 rs2 : Reg) : (encodeRdRs1Rs2 (op.setWidth 64) rd rs1 rs2).toNat =
    2 ^ 16 * rs2.val + (2 ^ 12 * rs1.val + (2 ^ 8 * rd.val + op.toNat)) := by
  have hop : (op.setWidth 64).toNat = op.toNat := BitVec.toNat_setWidth_of_le (by decide)
  have hlow : (regBits rd 8 ||| op.setWidth 64).toNat = 2 ^ 8 * rd.val + op.toNat := by
    rw [toNat_regBits_or (by decide) rd (by omega), hop]
  have hmid : (regBits rs1 12 ||| (regBits rd 8 ||| op.setWidth 64)).toNat =
      2 ^ 12 * rs1.val + (2 ^ 8 * rd.val + op.toNat) := by
    rw [toNat_regBits_or (by decide) rs1 (by omega), hlow]
  have hsort : encodeRdRs1 (op.setWidth 64) rd rs1 = regBits rs1 12 ||| (regBits rd 8 ||| op.setWidth 64) := by
    rw [encodeRdRs1]
    ac_rfl
  rw [encodeRdRs1Rs2, hsort, toNat_regBits_or (by decide) rs2 (by omega), hmid]

/-- A row without `rs2` holds 0 in its place. -/
theorem encodeRdRs1Rs2_zero (op : Word) (rd rs1 : Reg) : encodeRdRs1Rs2 op rd rs1 0 = encodeRdRs1 op rd rs1 := by
  simp [encodeRdRs1Rs2, regBits]

/-- The three forms of `encode` as one: the places that a row does not use hold 0. -/
theorem encode_eq_imm8_or (i : Instr) :
    encode i = BitVec.ofNat 64 i.imm8 <<< 20 ||| encodeRdRs1Rs2 (i.opcode.setWidth 64) i.rd i.rs1 i.rs2 := by
  have hnone (w : Word) : BitVec.ofNat 64 0 <<< 20 ||| w = w := by simp
  cases i
  case fromsingle | shl | shr => exact ((hnone _).trans (encodeRdRs1Rs2_zero _ _ _)).symm
  case getbit rd rs1 imm8 => exact congrArg (BitVec.ofNat 64 imm8 <<< 20 ||| ·) (encodeRdRs1Rs2_zero _ rd rs1).symm
  all_goals exact (hnone _).symm

/-- The value of every command's encoding; of an index too large for its field the digits from 2^64 on are lost. -/
theorem toNat_encode (i : Instr) : (encode i).toNat = 2 ^ 20 * i.imm8 % 2 ^ 64 +
    (2 ^ 16 * i.rs2.val + (2 ^ 12 * i.rs1.val + (2 ^ 8 * i.rd.val + i.opcode.toNat))) := by
  have hlow := toNat_encodeRdRs1Rs2 i.opcode i.rd i.rs1 i.rs2
  rw [encode_eq_imm8_or, toNat_shiftLeft_or (by decide) _ (by omega), hlow, BitVec.toNat_ofNat, Nat.mul_mod_mod]

/-- The encoder's word of a well-formed command is the sum of its fields. -/
theorem encode_eq_word {i : Instr} (h : i.wf = true) : encode i = i.word := by
  have himm8 := Instr.imm8_lt_of_wf h
  refine BitVec.eq_of_toNat_eq ?_
  rw [toNat_encode, Machine.toNat_word h]
  omega

theorem val_field (c : Word) (start len : Nat) :
    (c.extractLsb' start len).toFin.val = c.toNat / 2 ^ start % 2 ^ len := by
  rw [BitVec.val_toFin, BitVec.extractLsb'_toNat, Nat.shiftRight_eq_div_pow]

/-- The destination stands in bits [11:8] of every encoding, whatever the index (R54). -/
theorem rdField_encode (i : Instr) : rdField (encode i) = i.rd := by
  apply Fin.ext
  rw [rdField, val_field, toNat_encode]
  omega

/-- Settles O2: the encoder's word is the sum of the command's fields, which the decoder takes apart again. -/
theorem decodeOfEncode : Obligations.DecodeOfEncode := fun _ h => by
  rw [encode_eq_word h, Machine.decode_word h]

/-! ### A word that decodes is the sum of its command's fields (R58, R61) -/

theorem Instr.wf_of_imm8_lt {i : Instr} (h : i.imm8 < 256) : i.wf = true := by
  cases i
  case getbit => exact decide_eq_true (Nat.le_of_lt_succ h)
  all_goals rfl

/-- The command that a word decodes to passed its row's reserved check, and the row is that of the word's opcode. -/
theorem checkReserved_of_decode_eq_ok {c : Word} {i : Instr} (h : decode c = .ok i) :
    checkReserved c i.usedBits i = .ok i ∧ i.opcode.toNat = c.toNat % 256 := by
  rcases decode_cases c with ⟨-, hillegal⟩ | ⟨j, hcheck, hop⟩
  · cases hillegal.symm.trans h
  · rw [h] at hcheck
    obtain rfl := eq_of_checkReserved_eq_ok hcheck.symm
    exact ⟨hcheck.symm, hop⟩

/-- The fields that a decoded command takes from its word, by the three formats of the map. -/
theorem fields_of_decode_eq_ok {c : Word} {i : Instr} (h : decode c = .ok i) :
    i.rs1 = rs1Field c ∧
    ((i.usedBits = usedRdRs1 ∧ i.rs2 = 0 ∧ i.imm8 = 0) ∨
      (i.usedBits = usedRdRs1Rs2 ∧ i.rs2 = rs2Field c ∧ i.imm8 = 0) ∨
      (i.usedBits = usedRdRs1Imm8 ∧ i.rs2 = 0 ∧ i.imm8 = imm8Field c)) := by
  unfold decode at h
  split at h
  case h_12 => cases h
  all_goals obtain rfl := eq_of_checkReserved_eq_ok h
  case h_1 | h_4 | h_5 => exact ⟨rfl, .inl ⟨rfl, rfl, rfl⟩⟩
  case h_6 => exact ⟨rfl, .inr (.inr ⟨rfl, rfl, rfl⟩)⟩
  all_goals exact ⟨rfl, .inr (.inl ⟨rfl, rfl, rfl⟩)⟩

theorem unusedField_eq_zero {c : Word} {used : BitVec 32} {i : Instr} (h : checkReserved c used i = .ok i)
    {start len : Nat} (hlen : start + len ≤ 32) (hused : used.extractLsb' start len = 0#len) :
    c.toNat / 2 ^ start % 2 ^ len = 0 := by
  by_contra hset
  cases h.symm.trans (checkReserved_of_unusedField hlen hused hset i)

theorem highHalf_eq_zero {c : Word} {used : BitVec 32} {i : Instr} (h : checkReserved c used i = .ok i) :
    c.toNat / 2 ^ 32 = 0 := by
  by_contra hset
  cases h.symm.trans (checkReserved_of_highHalf hset used i)

/-- Every bit of a word that decodes is in a field that its row uses, or was found 0 by the reserved check. -/
theorem toNat_of_decode_eq_ok {c : Word} {i : Instr} (h : decode c = .ok i) : i.imm8 < 256 ∧ c.toNat =
    i.opcode.toNat + 2 ^ 8 * i.rd.val + 2 ^ 12 * i.rs1.val + 2 ^ 16 * i.rs2.val + 2 ^ 20 * i.imm8 := by
  obtain ⟨hcheck, hop⟩ := checkReserved_of_decode_eq_ok h
  obtain ⟨hrs1, hformat⟩ := fields_of_decode_eq_ok h
  have hhigh := highHalf_eq_zero hcheck
  have hrd : i.rd.val = _ := (congrArg Fin.val (rd_of_decode_eq_ok h)).trans (val_field c 8 4)
  replace hrs1 : i.rs1.val = _ := (congrArg Fin.val hrs1).trans (val_field c 12 4)
  rcases hformat with ⟨hused, hrs2, himm8⟩ | ⟨hused, hrs2, himm8⟩ | ⟨hused, hrs2, himm8⟩ <;> rw [hused] at hcheck
  · have hunused := unusedField_eq_zero (start := 16) (len := 16) hcheck (by decide) (by decide)
    rw [hrs2, himm8, Fin.val_zero]
    omega
  · have hunused := unusedField_eq_zero (start := 20) (len := 12) hcheck (by decide) (by decide)
    replace hrs2 : i.rs2.val = _ := (congrArg Fin.val hrs2).trans (val_field c 16 4)
    omega
  · have hunused := unusedField_eq_zero (start := 16) (len := 4) hcheck (by decide) (by decide)
    have htop := unusedField_eq_zero (start := 28) (len := 4) hcheck (by decide) (by decide)
    replace himm8 : i.imm8 = _ := himm8.trans (val_field c 20 8)
    rw [hrs2, Fin.val_zero]
    omega

/-- Settles O3: the word is the sum of its command's fields, and so is the command's encoding. -/
theorem encodeOfDecode : Obligations.EncodeOfDecode := by
  intro c i h
  obtain ⟨himm8, hsum⟩ := toNat_of_decode_eq_ok h
  have hwf := Instr.wf_of_imm8_lt himm8
  refine ⟨hwf, BitVec.eq_of_toNat_eq ?_⟩
  rw [encode_eq_word hwf, Machine.toNat_word hwf, hsum]

/-! ### Match and mask (R57, R61) -/

/-- The bits that a row uses, from its opcode. -/
def usedBitsOfOpcode (op : BitVec 8) : BitVec 32 :=
  if op ∈ [0x01, 0x04, 0x05] then usedRdRs1 else if op = 0x06 then usedRdRs1Imm8 else usedRdRs1Rs2

theorem Instr.usedBits_eq_of_opcode (i : Instr) : i.usedBits = usedBitsOfOpcode i.opcode := by
  cases i <;> rfl

theorem Instr.usedBits_congr {i row : Instr} (h : i.opcode = row.opcode) : i.usedBits = row.usedBits := by
  rw [i.usedBits_eq_of_opcode, row.usedBits_eq_of_opcode, h]

/-- A row's mask is the opcode's byte and every bit that the row does not use. -/
theorem Instr.rowMask_eq (i : Instr) : i.rowMask = ~~~(i.usedBits.setWidth 64) ||| (BitVec.allOnes 8).setWidth 64 := by
  cases i <;> simp only [Instr.rowMask, Instr.usedBits] <;> decide

theorem Instr.usedBits_opcode (i : Instr) : ∀ k < 8, i.usedBits.getLsbD k = true := by
  cases i <;> simp only [Instr.usedBits] <;> decide

/-- The reserved check passes exactly when the row uses every bit that is 1. -/
theorem checkReserved_eq_ok_iff (c : Word) (used : BitVec 32) (i : Instr) :
    checkReserved c used i = .ok i ↔ ∀ k, c.getLsbD k = true → used.getLsbD k = true := by
  refine ⟨fun h k hk => ?_, fun h => Machine.checkReserved_of_bits_used h i⟩
  rcases Machine.checkReserved_cases c used i with ⟨-, hhigh, hlow⟩ | ⟨herror, -⟩
  · have hk32 : k < 32 := by
      by_contra hge
      have hclear : c.getLsbD k = false := by
        have hbit := congrArg (·.getLsbD (k - 32)) hhigh
        have hlt := BitVec.lt_of_getLsbD hk
        simpa [show k - 32 < 32 by omega, show 32 + (k - 32) = k by omega] using hbit
      exact Bool.false_ne_true (hclear.symm.trans hk)
    simpa [hk32, hk] using congrArg (·.getLsbD k) hlow
  · cases herror.symm.trans h

theorem getLsbD_opField (c : Word) {k : Nat} (hk : k < 8) : (opField c).getLsbD k = c.getLsbD k := by
  simp [opField, hk]

theorem Instr.getLsbD_rowMask (i : Instr) {k : Nat} (hk : k < 64) :
    i.rowMask.getLsbD k = (!i.usedBits.getLsbD k || decide (k < 8)) := by
  rw [Instr.rowMask_eq, BitVec.getLsbD_or, BitVec.getLsbD_not, BitVec.getLsbD_setWidth, BitVec.getLsbD_setWidth,
    BitVec.getLsbD_allOnes, decide_eq_true hk, Bool.true_and, Bool.true_and, Bool.true_and]

/-- A word matches a row under its mask exactly when it has the row's opcode and no bit that the row does not use. -/
theorem and_rowMask_eq_iff (row : Instr) (c : Word) : c &&& row.rowMask = row.opcode.setWidth 64 ↔
    opField c = row.opcode ∧ ∀ k, c.getLsbD k = true → row.usedBits.getLsbD k = true := by
  have hmasked {k : Nat} (hk : k < 64) : (c &&& row.rowMask).getLsbD k =
      (c.getLsbD k && (!row.usedBits.getLsbD k || decide (k < 8))) := by
    rw [BitVec.getLsbD_and, row.getLsbD_rowMask hk]
  constructor
  · intro h
    have hbit {k : Nat} (hk : k < 64) : (c.getLsbD k && (!row.usedBits.getLsbD k || decide (k < 8))) =
        row.opcode.getLsbD k := by
      rw [← hmasked hk, h, BitVec.getLsbD_setWidth, decide_eq_true hk, Bool.true_and]
    refine ⟨BitVec.eq_of_getLsbD_eq fun k hk => ?_, fun k hset => ?_⟩
    · rw [getLsbD_opField c hk, ← hbit (hk.trans (by decide)), decide_eq_true hk, Bool.or_true, Bool.and_true]
    · rcases Nat.lt_or_ge k 8 with hlow | hhigh
      · exact row.usedBits_opcode k hlow
      · simpa [hset, hhigh] using hbit (BitVec.lt_of_getLsbD hset)
  · rintro ⟨hop, hused⟩
    refine BitVec.eq_of_getLsbD_eq fun k hk => ?_
    rw [hmasked hk, BitVec.getLsbD_setWidth, decide_eq_true hk, Bool.true_and]
    rcases Nat.lt_or_ge k 8 with hlow | hhigh
    · rw [← hop, getLsbD_opField c hlow, decide_eq_true hlow, Bool.or_true, Bool.and_true]
    · rw [BitVec.getLsbD_of_ge _ _ hhigh, decide_eq_false hhigh.not_gt, Bool.or_false]
      cases hset : c.getLsbD k with
      | false => rfl
      | true => rw [hused k hset]; rfl

/-- Settles O4: under the mask a word shows its opcode and the bits that the reserved check wants 0. -/
theorem matchMaskSelectsRow : Obligations.MatchMaskSelectsRow := by
  intro row c
  rw [and_rowMask_eq_iff]
  constructor
  · rintro ⟨hop, hused⟩
    have hopcode : row.opcode.toNat = c.toNat % 256 := by rw [← hop, toNat_opField]
    obtain ⟨i, hdecode, hi⟩ := decode_of_defined (hopcode ▸ row.opcode_mem_definedOpcodes)
    have hrow : i.opcode = row.opcode := BitVec.eq_of_toNat_eq (hi.trans hopcode.symm)
    refine ⟨i, hdecode.trans ((checkReserved_eq_ok_iff c _ i).mpr ?_), hrow⟩
    rwa [Instr.usedBits_congr hrow]
  · rintro ⟨i, hdecode, hrow⟩
    obtain ⟨hcheck, hi⟩ := checkReserved_of_decode_eq_ok hdecode
    rw [← hrow, ← Instr.usedBits_congr hrow]
    exact ⟨BitVec.eq_of_toNat_eq ((toNat_opField c).trans hi.symm), (checkReserved_eq_ok_iff c _ i).mp hcheck⟩

/-- Settles O1: eleven closed words, one of each row. -/
theorem sampleWordsDecode : Obligations.SampleWordsDecode := by
  unfold Obligations.SampleWordsDecode
  decide

end Sys2Proof
end

section
/-! The invariant of the machine (R23, R26, R27, R30, R102, R106, R119). Outside reset it speaks of six fields only, so
what leaves those as they are keeps it; what is left are the ends of a command, acceptance, the writes of STATUS and
EXPBITS, and the reset input. -/

namespace Sys2Proof.Machine

/-! ### The fields that the invariant reads -/

/-- The fields that the invariant speaks of outside reset are the same in both states. -/
structure State.SameControl (s t : State) : Prop where
  expbits : t.expbits = s.expbits
  err : t.err = s.err
  errcode : t.errcode = s.errcode
  errcmd : t.errcmd = s.errcmd
  done : t.done = s.done
  busy : t.busy = s.busy

theorem State.Inv.of_sameControl {s t : State} (h : s.Inv) (hsame : s.SameControl t) (hreset : t.inReset = false) :
    t.Inv := by
  obtain ⟨hexp, herr, hcode, hcmd, hdone, hbusy⟩ := hsame
  constructor
  · rw [hexp]
    exact h.expbitsLegal
  · rw [herr, hcode]
    exact h.codeClear
  · rw [herr, hcode, hcmd]
    exact h.codeExplains
  · rw [hdone, herr]
    exact h.oneEnd
  · rw [hbusy, hdone, herr]
    exact h.busyClean
  · simp [hreset]

/-- The model's own fields are no part of the invariant (log 11). -/
theorem State.Inv.with_own {s : State} (h : s.Inv) (inputs : List Input) (response : Option Response) (draws : Nat) :
    { s with inputs := inputs, response := response, draws := draws }.Inv where
  expbitsLegal := h.expbitsLegal
  codeClear := h.codeClear
  codeExplains := h.codeExplains
  oneEnd := h.oneEnd
  busyClean := h.busyClean
  heldInReset hreset :=
    congrArg (fun u : State => { u with inputs := inputs, response := response, draws := draws }) (h.heldInReset hreset)

/-- A command runs only outside reset (R119). -/
theorem State.Inv.not_inReset_of_busy {s : State} (h : s.Inv) (hbusy : s.busy = true) : s.inReset = false := by
  cases hreset : s.inReset with
  | false => rfl
  | true =>
    rw [h.heldInReset hreset] at hbusy
    cases hbusy

/-! ### The ends of a command -/

theorem State.countProducts_zero (s : State) : s.countProducts 0 = s := by
  simp [State.countProducts]

theorem State.Inv.complete {s : State} (h : s.Inv) (hbusy : s.busy = true) (n : Nat) (rd : Reg) (v : Dw) :
    ((s.countProducts n).complete rd v).Inv := by
  have hreset := h.not_inReset_of_busy hbusy
  obtain ⟨-, hclean⟩ := h.busyClean hbusy
  constructor
  · exact h.expbitsLegal
  · exact h.codeClear
  · exact h.codeExplains
  · simp [hclean]
  · simp
  · simp [hreset]

theorem State.Inv.takeFault {s : State} (h : s.Inv) (hbusy : s.busy = true) {f : CmdFault}
    (hexplains : explains (faultCode f) s.pending = true) : (s.takeFault f).Inv := by
  have hreset := h.not_inReset_of_busy hbusy
  obtain ⟨hdone, -⟩ := h.busyClean hbusy
  constructor
  · exact h.expbitsLegal
  · simp
  · exact fun _ => hexplains
  · simp [hdone]
  · simp
  · simp [hreset]

theorem explains_decodeFault {c : Word} {f : CmdFault} (h : decode c = .error f) :
    explains (faultCode f) c = true := by
  simp [explains, h]

/-- How a command that PENDING holds ends: it completes, or it takes the operand fault of its row (R102). -/
theorem exec_completes_or_explains {i : Instr} {s : State} (hdecode : decode s.pending = .ok i) :
    (∃ n v, exec i s = .next ((s.countProducts n).complete i.rd v)) ∨
    ∃ f, exec i s = .next (s.takeFault f) ∧ explains (faultCode f) s.pending = true := by
  have hplain {v : Dw} (h : exec i s = .next (s.complete i.rd v)) :
      ∃ n v, exec i s = .next ((s.countProducts n).complete i.rd v) :=
    ⟨0, v, by rw [State.countProducts_zero, h]⟩
  cases i with
  | reduce rd rs1 rs2 =>
    rcases execReduce_cases rd rs1 rs2 s with ⟨v, h⟩ | h
    · exact .inl (hplain h)
    · exact .inr ⟨_, h, by simp [explains, hdecode]⟩
  | montmul rd rs1 rs2 =>
    rcases execMontmul_cases rd rs1 rs2 s with ⟨v, h⟩ | h
    · exact .inl ⟨1, v, h⟩
    · exact .inr ⟨_, h, by simp [explains, hdecode]⟩
  | modexp rd rs1 rs2 =>
    rcases execModexp_cases rd rs1 rs2 s with ⟨v, h⟩ | h
    · exact .inl ⟨_, v, h⟩
    · exact .inr ⟨_, h, by simp [explains, hdecode]⟩
  | _ => exact .inl (hplain rfl)

theorem engineStep_keepsInv {s t : State} (hinv : s.Inv) (h : engineStep s = .next t) : t.Inv := by
  rcases engineStep_cases s with ⟨-, hs⟩ | ⟨hbusy, i, hdecode, hs⟩ | ⟨hbusy, f, hdecode, hs⟩ <;> rw [hs] at h
  · cases h
    exact hinv
  · rcases exec_completes_or_explains hdecode with ⟨n, v, he⟩ | ⟨f, he, hexplains⟩ <;> cases he.symm.trans h
    · exact hinv.complete hbusy n i.rd v
    · exact hinv.takeFault hbusy hexplains
  · cases h
    exact hinv.takeFault hbusy (explains_decodeFault hdecode)

/-! ### The host's accesses -/

/-- Without its bit 2 a STATUS write leaves ERR and ERRCODE (R21, R23). -/
theorem State.clearStatus_of_not_errBit (s : State) {v : Word} (h : v.getLsbD 2 = false) :
    s.clearStatus v = { s with done := s.done && !v.getLsbD 1, ovr := s.ovr && !v.getLsbD 3 } := by
  rw [State.clearStatus, h, Bool.not_false, Bool.and_true]
  rfl

section
variable {s : State} (h : s.Inv) (hreset : s.inReset = false)
include h hreset

theorem State.Inv.dropWrite : s.dropWrite.Inv := h.of_sameControl ⟨rfl, rfl, rfl, rfl, rfl, rfl⟩ hreset

theorem State.Inv.clearStatus (v : Word) : (s.clearStatus v).Inv := by
  cases hbit : v.getLsbD 2 with
  | true =>
    rw [State.clearStatus_of_errBit s hbit]
    exact ⟨h.expbitsLegal, fun _ => rfl, by simp, by simp, fun hbusy => by simp [h.busyClean hbusy], by simp [hreset]⟩
  | false =>
    rw [State.clearStatus_of_not_errBit s hbit]
    refine ⟨h.expbitsLegal, h.codeClear, h.codeExplains, ?_, fun hbusy => ?_, by simp [hreset]⟩
    · rintro ⟨hdone, herr⟩
      exact h.oneEnd ⟨(Bool.and_eq_true_iff.mp hdone).1, herr⟩
    · obtain ⟨hdone, herr⟩ := h.busyClean hbusy
      simp [hdone, herr]

theorem State.Inv.writeCmd (c : Word) : (s.writeCmd c).Inv := by
  rcases s.writeCmd_cases c with ⟨-, hclean, hw⟩ | ⟨-, hw⟩ <;> rw [hw]
  · constructor
    · exact h.expbitsLegal
    · exact h.codeClear
    · exact h.codeExplains
    · simp
    · simp [hclean]
    · simp [hreset]
  · exact h.dropWrite hreset

theorem State.Inv.writeExpbits (v : Word) : (s.writeExpbits v).Inv := by
  have hlegal : 1 ≤ (s.writeExpbits v).expbits.toNat ∧ (s.writeExpbits v).expbits.toNat ≤ 64 := by
    have hold := h.expbitsLegal
    rw [State.toNat_writeExpbits_expbits]
    split <;> omega
  rw [State.writeExpbits_frame]
  exact ⟨hlegal, h.codeClear, h.codeExplains, h.oneEnd, h.busyClean, by simp [hreset]⟩

theorem State.Inv.hostWrite (r : WinReg) (v : Word) : (s.hostWrite r v).Inv := by
  unfold State.hostWrite
  split
  case isTrue => exact h.dropWrite hreset
  case isFalse =>
    cases r with
    | status => exact h.clearStatus hreset v
    | cmd => exact h.writeCmd hreset v
    | expbits => exact h.writeExpbits hreset v
    | _ => exact h.of_sameControl ⟨rfl, rfl, rfl, rfl, rfl, rfl⟩ hreset

theorem State.Inv.serve (a : HostAccess) : (s.serve a).Inv := by
  rcases s.serve_cases a with hserve | ⟨off, -, -, -, hserve⟩ | ⟨off, data, -, -, -, -, hserve⟩ <;> rw [hserve]
  · exact h.with_own _ _ _
  · rw [State.hostRead_frame]
    exact h.with_own s.inputs _ _
  · exact (h.hostWrite hreset _ _).with_own _ _ _

end

/-! ### Reset (R118, R119) -/

/-- Settles O52: each clause is about fields whose reset values R118 states. -/
theorem resetMeetsInvariant : Obligations.ResetMeetsInvariant where
  expbitsLegal := by decide
  codeClear _ := rfl
  codeExplains h := by cases h
  oneEnd := by decide
  busyClean h := by cases h
  heldInReset h := by cases h

theorem State.inv_assertReset (s : State) : s.assertReset.Inv where
  expbitsLegal := resetMeetsInvariant.expbitsLegal
  codeClear _ := rfl
  codeExplains h := by cases h
  oneEnd := resetMeetsInvariant.oneEnd
  busyClean h := by cases h
  heldInReset _ := rfl

/-- Settles O53: each of the things a step can be keeps the invariant. -/
theorem stepKeepsInvariant : Obligations.StepKeepsInvariant := by
  intro s t hinv h
  have htaken (rest : List Input) : (s.withInputs rest).Inv := hinv.with_own rest _ _
  rcases step_cases s with ⟨-, hs⟩ | ⟨rest, -, hs⟩ | ⟨a, rest, -, hreset, hs⟩ | ⟨a, rest, -, -, hs⟩ | ⟨rest, -, hs⟩ |
    ⟨rest, -, hs⟩ <;> rw [hs] at h
  · exact engineStep_keepsInv hinv h
  · exact engineStep_keepsInv (htaken rest) h
  · cases h
    exact (htaken rest).serve hreset a
  · cases h
  · cases h
    exact State.inv_assertReset _
  · cases h
    exact (htaken rest).of_sameControl ⟨rfl, rfl, rfl, rfl, rfl, rfl⟩ rfl

end Sys2Proof.Machine
end

section
/-! The engine's turn and the host's window as a whole (R17, R33, R44, R46, R110, R117, R119): what a command may write,
what a busy block drops, what an idle block answers, the STATUS word, the interrupt level and the reset input. -/

namespace Sys2Proof.Machine

/-! ### The engine's turn (R33, R117) -/

/-- Settles O29: with no input waiting and at an engine slot the step is the engine step, in each of its three cases. -/
theorem stepRunsDecodedCommand : Obligations.StepRunsDecodedCommand := by
  intro s
  have hslot {rest : List Input} (hin : s.inputs = .engineSlot :: rest) : step s = engineStep (s.withInputs rest) :=
    step_engineSlot hin
  refine ⟨fun i hbusy hdecode => ⟨fun hin => ?_, fun rest hin => ?_⟩,
    fun f hbusy hdecode => ⟨fun hin => ?_, fun rest hin => ?_⟩, fun hidle => ⟨fun hin => ?_, fun rest hin => ?_⟩⟩
  · exact (step_nil hin).trans (engineStep_runs hbusy hdecode)
  · exact (hslot hin).trans (engineStep_runs (s := s.withInputs rest) hbusy hdecode)
  · rw [step_nil hin]
    exact exists_faulted_of_decode_error hbusy hdecode
  · rw [hslot hin]
    exact exists_faulted_of_decode_error (s := s.withInputs rest) hbusy hdecode
  · exact (step_nil hin).trans (engineStep_idle hidle)
  · exact (hslot hin).trans (engineStep_idle (s := s.withInputs rest) hidle)

/-- Settles O31: each of the three ends of a command writes only those fields, and of the W registers only its own. -/
theorem commandWritesNothingElse : Obligations.CommandWritesNothingElse := by
  intro i s
  rcases exec_cases i s with ⟨v, h⟩ | ⟨n, v, hop, h⟩ | ⟨f, h⟩
  · exact ⟨_, h, rfl, fun _ _ => rfl, fun _ hj => s.readW_complete_other v hj, rdField_encode i⟩
  · refine ⟨_, h, rfl, fun hmont hexp => ?_, fun _ hj => State.readW_complete_other _ v hj, rdField_encode i⟩
    exact (hop.elim hmont hexp).elim
  · exact ⟨_, h, rfl, fun _ _ => rfl, fun _ _ => rfl, rdField_encode i⟩

/-! ### Writes while BUSY (R46) -/

/-- CMD, MOD, EXPBITS, MMCNT and the W halves are the registers that a running command locks. -/
theorem lockedWhileBusy_winRegAt {off : Nat}
    (hoff : off ∈ [0x018, 0x028, 0x038, 0x040] ∨ (0x100 ≤ off ∧ off < 0x200 ∧ off % 8 = 0)) :
    (winRegAt off).lockedWhileBusy = true := by
  rcases hoff with hlisted | ⟨hlow, hhigh, h8⟩
  · revert off
    decide
  · obtain ⟨i, hi | hi⟩ := exists_winRegAt_eq_half hlow hhigh h8 <;> rw [hi] <;> rfl

/-- Settles O33: a locked register drops the write; CTRL and STATUS are never locked. -/
theorem busyWritesAreDropped : Obligations.BusyWritesAreDropped := by
  intro s off v rest h hbusy
  have hwaiting : (s.withInputs rest).busy = true := hbusy
  refine ⟨fun hoff => ?_, ?_, ?_⟩
  · obtain ⟨h8, hlt⟩ : off % 8 = 0 ∧ off < 0x200 := by
      simp only [List.mem_cons, List.not_mem_nil, or_false] at hoff
      omega
    rw [step_writeAt h h8 hlt, State.hostWrite_of_locked hwaiting (lockedWhileBusy_winRegAt hoff)]
    rfl
  · rintro rfl
    exact step_writeAt_unlocked h rfl rfl (by decide)
  · rintro rfl
    exact step_writeAt_unlocked h rfl rfl (by decide)

/-! ### Reads (R17, R44) -/

/-- While the block is idle every register of the window answers with its value. -/
theorem answers_of_readAt_idle {s : State} {off : Nat} {rest : List Input} (h : s.HostDoes (readAt off) rest)
    (hidle : s.busy = false) (h8 : off % 8 = 0) (hlt : off < 0x200) :
    s.Answers rest (s.regValue (winRegAt off)) := by
  have hread : (s.withInputs rest).hostRead (winRegAt off) =
      (s.withInputs rest).respond (.data (toLanes (s.regValue (winRegAt off)))) := by
    simp [State.hostRead, hidle]
  rw [State.Answers, step_readAt h h8 hlt, hread]
  rfl

/-- Settles O35: each offset names one register of the map. -/
theorem idleReadsReturnRegisters : Obligations.IdleReadsReturnRegisters := by
  intro s off rest h hidle
  refine ⟨?_, ?_, ?_, ?_, ?_, ?_, ?_, ?expbits, ?_,
    fun ⟨hlow, hhigh, h8⟩ => answers_zero_of_reserved h hlow hhigh h8, fun i => ⟨?lo, ?hi⟩⟩
  case expbits =>
    rintro rfl
    rw [BitVec.ofNat_toNat]
    exact answers_of_readAt_idle h hidle rfl (by decide)
  case lo =>
    rintro rfl
    have hanswer := answers_of_readAt_idle h hidle (by omega) (by omega)
    rwa [winRegAt_wLo] at hanswer
  case hi =>
    rintro rfl
    have hanswer := answers_of_readAt_idle h hidle (by omega) (by omega)
    rwa [winRegAt_wHi] at hanswer
  all_goals
    rintro rfl
    exact answers_of_readAt_idle h hidle rfl (by decide)

/-- A read, answered or refused by the bus, touches only the model's own answer and draw counter (R39, R44). -/
theorem State.serve_read_frame (s : State) (addr n : Nat) : s.serve (.read addr n) =
    { s with response := (s.serve (.read addr n)).response, draws := (s.serve (.read addr n)).draws } := by
  rcases s.serve_cases (.read addr n) with hserve | ⟨off, -, -, -, hserve⟩ | ⟨off, data, -, -, hwrite, -, -⟩
  · rw [hserve]
    rfl
  · rw [hserve]
    exact s.hostRead_frame _
  · cases hwrite

/-- Settles O36: the step serves the read. -/
theorem readsHaveNoSideEffect : Obligations.ReadsHaveNoSideEffect := by
  intro s addr n rest ⟨hreset, hinputs⟩
  exact ⟨_, step_access hinputs hreset, (s.withInputs rest).serve_read_frame addr n⟩

/-! ### STATUS (R19 to R24) and the interrupt output (R110) -/

theorem toNat_or_bitWord_shiftLeft {n : Nat} (hn : n < 64) {v : Word} (hv : v.toNat < 2 ^ n) (b : Bool) :
    (v ||| bitWord b <<< n).toNat = v.toNat + 2 ^ n * b.toNat := by
  have hplace : 2 ^ n * b.toNat < 2 ^ 64 :=
    calc 2 ^ n * b.toNat ≤ 2 ^ n * 1 := Nat.mul_le_mul_left _ b.toNat_le
      _ < 2 ^ 64 := by rw [mul_one]; exact Nat.pow_lt_pow_right one_lt_two hn
  rw [BitVec.or_comm, toNat_shiftLeft_or hn.le _ hv, toNat_bitWord, Nat.mod_eq_of_lt hplace, Nat.add_comm]

/-- Settles O39: each field of the word stands above the fields before it, so their OR is their sum. -/
theorem statusLayout : Obligations.StatusLayout := by
  intro s
  have hbusy := s.busy.toNat_le
  have hdone := s.done.toNat_le
  have herr := s.err.toNat_le
  have hovr := s.ovr.toNat_le
  have hcode := s.errcode.isLt
  have hsum0 := toNat_bitWord s.busy
  have hsum1 := toNat_or_bitWord_shiftLeft (n := 1) (by decide) (by omega) s.done (v := bitWord s.busy)
  have hsum2 := toNat_or_bitWord_shiftLeft (n := 2) (by decide) (by omega) s.err
    (v := bitWord s.busy ||| bitWord s.done <<< 1)
  have hsum3 := toNat_or_bitWord_shiftLeft (n := 3) (by decide) (by omega) s.ovr
    (v := bitWord s.busy ||| bitWord s.done <<< 1 ||| bitWord s.err <<< 2)
  rw [State.statusWord, BitVec.or_comm, toNat_shiftLeft_or (by decide) _ (by omega), hsum3,
    BitVec.toNat_setWidth_of_le (by decide)]
  omega

theorem State.irq_eq_true_iff (s : State) : s.irq = true ↔ s.ie = true ∧ (s.done = true ∨ s.err = true) := by
  simp [State.irq]

theorem State.irq_of_no_source {s : State} (hdone : s.done = false) (herr : s.err = false) : s.irq = false := by
  simp [State.irq, hdone, herr]

/-- Settles O49: IRQ is a formula of IE, DONE and ERR; a STATUS write of 0x6 clears both sources. -/
theorem interruptLevel : Obligations.InterruptLevel := by
  intro s
  refine ⟨s.irq_eq_true_iff, fun line => ?_, rfl, State.irq_of_no_source ?_ ?_, rfl,
    fun hsource => (State.irq_eq_true_iff _).mpr ⟨rfl, hsource⟩⟩
  · rw [State.interruptLine, Bool.and_eq_true, decide_eq_true_eq]
  · exact Bool.and_false _
  · exact Bool.and_false _

/-! ### The reset input (R119) -/

/-- Settles O51: the step is the assertion or the release. -/
theorem resetAbandonsEverything : Obligations.ResetAbandonsEverything :=
  fun _ _ => ⟨step_assertReset, step_releaseReset⟩

end Sys2Proof.Machine
end

section
/-! The machine goes on (R126): every step but a host access during reset has a next state, and every step takes one
input, so a run comes to the engine's turn. -/

namespace Sys2Proof.Machine

/-- The engine step always has a next state; it takes no input, leaves the reset input, and no command runs after it. -/
theorem engineStep_next (s : State) : ∃ t, engineStep s = .next t ∧ t.inputs = s.inputs ∧ t.inReset = s.inReset ∧
    t.busy = false := by
  rcases engineStep_cases s with ⟨hidle, hs⟩ | ⟨-, i, -, hs⟩ | ⟨-, f, -, hs⟩
  · exact ⟨s, hs, rfl, rfl, hidle⟩
  · rcases exec_cases i s with ⟨v, he⟩ | ⟨n, v, -, he⟩ | ⟨f, he⟩ <;> exact ⟨_, hs.trans he, rfl, rfl, rfl⟩
  · exact ⟨_, hs, rfl, rfl, rfl⟩

theorem State.serve_inputs_inReset (s : State) (a : HostAccess) :
    (s.serve a).inputs = s.inputs ∧ (s.serve a).inReset = s.inReset := by
  rcases s.serve_cases a with hserve | ⟨off, -, -, -, hserve⟩ | ⟨off, data, -, -, -, -, hserve⟩ <;> rw [hserve]
  · exact ⟨rfl, rfl⟩
  · rw [State.hostRead_frame]
    exact ⟨rfl, rfl⟩
  · obtain ⟨-, hreset, hinputs, -, -⟩ := s.hostWrite_frame (winRegAt off) (fromLanes data)
    exact ⟨hinputs, hreset⟩

theorem State.HostKeepsOff.of_inputs_inReset {s t : State} (h : s.HostKeepsOff) (hinputs : t.inputs = s.inputs)
    (hreset : t.inReset = s.inReset) : t.HostKeepsOff := by
  rwa [State.HostKeepsOff, hinputs, hreset]

/-- While the host keeps off, a step goes on, takes the next input, and the host still keeps off. -/
theorem step_of_hostKeepsOff {s : State} (h : s.HostKeepsOff) :
    ∃ t, step s = .next t ∧ t.HostKeepsOff ∧ t.inputs = s.inputs.tail := by
  have hkeeps : keepsOff s.inReset s.inputs = true := h
  match hin : s.inputs with
  | [] =>
    obtain ⟨t, ht, hinputs, hreset, -⟩ := engineStep_next s
    exact ⟨t, (step_nil hin).trans ht, h.of_inputs_inReset hinputs hreset, hinputs.trans hin⟩
  | .engineSlot :: rest =>
    rw [hin] at hkeeps
    obtain ⟨t, ht, hinputs, hreset, -⟩ := engineStep_next (s.withInputs rest)
    exact ⟨t, (step_engineSlot hin).trans ht, .of_inputs_inReset (s := s.withInputs rest) hkeeps hinputs hreset,
      hinputs⟩
  | .access a :: rest =>
    rw [hin, keepsOff, Bool.and_eq_true, Bool.not_eq_true'] at hkeeps
    obtain ⟨hreleased, hrest⟩ := hkeeps
    obtain ⟨hinputs, hreset⟩ := (s.withInputs rest).serve_inputs_inReset a
    exact ⟨_, step_access hin hreleased, .of_inputs_inReset (s := s.withInputs rest) hrest hinputs hreset, hinputs⟩
  | .assertReset :: rest =>
    rw [hin] at hkeeps
    exact ⟨_, step_assertReset hin, hkeeps, rfl⟩
  | .releaseReset :: rest =>
    rw [hin] at hkeeps
    exact ⟨_, step_releaseReset hin, hkeeps, rfl⟩

/-- Every step goes on but that of an access during reset. -/
theorem step_next_or_access_inReset (s : State) :
    (∃ t, step s = .next t) ∨ (s.inReset = true ∧ ∃ a rest, s.inputs = .access a :: rest) := by
  rcases step_cases s with ⟨-, hs⟩ | ⟨rest, -, hs⟩ | ⟨a, rest, -, -, hs⟩ | ⟨a, rest, hin, hreset, -⟩ | ⟨rest, -, hs⟩ |
    ⟨rest, -, hs⟩
  · obtain ⟨t, ht, -⟩ := engineStep_next s
    exact .inl ⟨t, hs.trans ht⟩
  · obtain ⟨t, ht, -⟩ := engineStep_next (s.withInputs rest)
    exact .inl ⟨t, hs.trans ht⟩
  · exact .inl ⟨_, hs⟩
  · exact .inr ⟨hreset, a, rest, hin⟩
  · exact .inl ⟨_, hs⟩
  · exact .inl ⟨_, hs⟩

/-- Settles O54: the refusal is the one step without a next state. -/
theorem onlyAccessInResetStops : Obligations.OnlyAccessInResetStops := by
  refine ⟨fun s => ⟨(step_next_or_access_inReset s).resolve_left, ?_⟩, fun s h => ?_⟩
  · rintro ⟨hreset, a, rest, hin⟩ ⟨t, ht⟩
    cases (step_access_inReset hin hreset).symm.trans ht
  · obtain ⟨t, ht, hkeeps, -⟩ := step_of_hostKeepsOff h
    exact ⟨t, ht, hkeeps⟩

/-- Settles O55, by induction on the inputs still to come: each step takes one, and the last one is the engine's. -/
theorem everyCommandEnds : Obligations.EveryCommandEnds := by
  intro s h
  induction hlen : s.inputs.length generalizing s with
  | zero =>
    have hin := List.eq_nil_of_length_eq_zero hlen
    obtain ⟨t, ht, hinputs, -, hidle⟩ := engineStep_next s
    exact ⟨t, core_run_succ 0 ((step_nil hin).trans ht), hinputs.trans hin, hidle⟩
  | succ n ih =>
    obtain ⟨t, ht, hkeeps, htail⟩ := step_of_hostKeepsOff h
    obtain ⟨u, hrun, hend⟩ := ih t hkeeps (by rw [htail, List.length_tail, hlen, Nat.add_sub_cancel])
    exact ⟨u, (core_run_succ (n + 1) ht).trans hrun, hend⟩

end Sys2Proof.Machine
end
